-- ==== Sys2Proof/Word.lean ====
section
/-! DEFINITION. The widths of the KFF2 bus core (00_scope.md R13, 10_state.md, 30_encoding.md R83). -/

namespace Sys2Proof

/-- UInt8: a register, a data-bus value, a byte of peripheral memory. -/
abbrev Byte := BitVec 8

/-- UInt16: a host address (20_memory.md R58). -/
abbrev Addr := BitVec 16

/-- UInt32: the free-running counter and the phase references (10_state.md R21, R22). -/
abbrev Time := BitVec 32

/-- The 24-bit peripheral address before and after masking (10_state.md R51). -/
abbrev PerAddr := BitVec 24

/-- The 18-bit host bus cycle word `W` (30_encoding.md R83). -/
abbrev CycleWord := BitVec 18

end Sys2Proof
end

