-- ==== Sys2Proof/Syntax.lean ====
section
/-! DEFINITION. The operations of the core, one constructor per row of spec/opcode_table.json (00_scope.md R3,
30_encoding.md R82), their operand types, and the encoded form of an operation. -/

namespace Sys2Proof

/-- The electrical mode of a bus: tri-stated (In) or driven (Out) (10_state.md R29). -/
inductive Dir where
  | input
  | output
  deriving DecidableEq, Repr, Inhabited

/-- The host clock class (10_state.md R20). -/
inductive Profile where
  | unclassified
  | a
  | b
  deriving DecidableEq, Repr, Inhabited

/-- A handler pair (10_state.md R27): the DMA controller's own pair, or an out-of-scope cartridge variant, which
enters only as an abstract pair (00_scope.md R9) and is told apart by a number. -/
inductive Pair where
  | reu
  | cart (variant : Nat)
  deriving DecidableEq, Repr, Inhabited

/-- The content of the handler slot (10_state.md R27). A `dma` slot holds the 3-bit code of 30_encoding.md R90. -/
inductive Handler where
  | none
  | terminal (h : Pair)
  | composite (h : Pair)
  | dma (s : BitVec 3)
  deriving DecidableEq, Repr, Inhabited

/-- The further control outputs, one opaque value (10_state.md R33). -/
inductive CartLines where
  | deasserted
  | driven (v : Nat)
  deriving DecidableEq, Repr, Inhabited

/-- The control record (10_state.md R34). `rw` true is a host read; `io1`, `io2`, `roml`, `romh` true is asserted. -/
structure Ctrl where
  rw : Bool
  io1 : Bool
  io2 : Bool
  roml : Bool
  romh : Bool
  ba : Bool
  other : Nat
  deriving DecidableEq, Repr, Inhabited

/-- The operations. The operands of a HOSTCYC row are the bits of `W` its match and mask leave open. -/
inductive Instr where
  /-- R152. `mirror` is W[15:5]. -/
  | rdStatus (mirror : BitVec 11)
  /-- R153. `mirror` is W[15:5]. -/
  | rdCommand (mirror : BitVec 11)
  /-- R154. `mirror` is W[15:5]. -/
  | rdHostLo (mirror : BitVec 11)
  /-- R155. `mirror` is W[15:5]. -/
  | rdHostHi (mirror : BitVec 11)
  /-- R156. `mirror` is W[15:5]. -/
  | rdPerLo (mirror : BitVec 11)
  /-- R157. `mirror` is W[15:5]. -/
  | rdPerHi (mirror : BitVec 11)
  /-- R158. `mirror` is W[15:5]. -/
  | rdBank (mirror : BitVec 11)
  /-- R159. `mirror` is W[15:5]. -/
  | rdLenLo (mirror : BitVec 11)
  /-- R160. `mirror` is W[15:5]. -/
  | rdLenHi (mirror : BitVec 11)
  /-- R161. `mirror` is W[15:5]. -/
  | rdImr (mirror : BitVec 11)
  /-- R162. `mirror` is W[15:5]. -/
  | rdAcr (mirror : BitVec 11)
  /-- R163, index 0x0B. -/
  | rdUnused0B (mirror : BitVec 11)
  /-- R163, indices 0x0C to 0x0F; `sub` is W[1:0]. -/
  | rdUnused0C0F (mirror : BitVec 11) (sub : BitVec 2)
  /-- R163, indices 0x10 to 0x1F; `sub` is W[3:0]. -/
  | rdUnused101F (mirror : BitVec 11) (sub : BitVec 4)
  /-- R164. The data byte is sampled after decode. -/
  | wrStatus (mirror : BitVec 11)
  /-- R175. The data byte is sampled after decode. -/
  | wrCommand (mirror : BitVec 11)
  /-- R166. The data byte is sampled after decode. -/
  | wrHostLo (mirror : BitVec 11)
  /-- R167. The data byte is sampled after decode. -/
  | wrHostHi (mirror : BitVec 11)
  /-- R168. The data byte is sampled after decode. -/
  | wrPerLo (mirror : BitVec 11)
  /-- R169. The data byte is sampled after decode. -/
  | wrPerHi (mirror : BitVec 11)
  /-- R170. The data byte is sampled after decode. -/
  | wrBank (mirror : BitVec 11)
  /-- R171. The data byte is sampled after decode. -/
  | wrLenLo (mirror : BitVec 11)
  /-- R172. The data byte is sampled after decode. -/
  | wrLenHi (mirror : BitVec 11)
  /-- R173. The data byte is sampled after decode. -/
  | wrImr (mirror : BitVec 11)
  /-- R174. The data byte is sampled after decode. -/
  | wrAcr (mirror : BitVec 11)
  /-- R177, index 0x0B. -/
  | wrUnused0B (mirror : BitVec 11)
  /-- R177, indices 0x0C to 0x0F. -/
  | wrUnused0C0F (mirror : BitVec 11) (sub : BitVec 2)
  /-- R177, indices 0x10 to 0x1F. -/
  | wrUnused101F (mirror : BitVec 11) (sub : BitVec 4)
  /-- R178, a host write to $FF00. -/
  | wrFf00
  /-- R89: a trigger with this COMMAND byte, bits 6, 5, 4 and 3:2 as given. -/
  | cmdStash (res6 auto ff00 : Bool) (res32 : BitVec 2)
  /-- R89: a trigger with this COMMAND byte, bits 6, 5, 4 and 3:2 as given. -/
  | cmdFetch (res6 auto ff00 : Bool) (res32 : BitVec 2)
  /-- R89: a trigger with this COMMAND byte, bits 6, 5, 4 and 3:2 as given. -/
  | cmdSwap (res6 auto ff00 : Bool) (res32 : BitVec 2)
  /-- R89: a trigger with this COMMAND byte, bits 6, 5, 4 and 3:2 as given. -/
  | cmdVerify (res6 auto ff00 : Bool) (res32 : BitVec 2)
  /-- R190, R195. -/
  | dmaStash
  /-- R190, R196. -/
  | dmaFetch
  /-- R190, R197. -/
  | dmaSwap1
  /-- R190, R198. -/
  | dmaSwap2
  /-- R190, R199. -/
  | dmaVerify
  /-- R190, R200. -/
  | dmaVerifyErr
  /-- R99. -/
  | addrRead
  /-- R100. -/
  | addrDrive (a : Addr)
  /-- R101. -/
  | addrDirIn
  /-- R102. -/
  | addrDirOut
  /-- R103. -/
  | dataRead
  /-- R104. -/
  | dataDrive (v : Byte)
  /-- R105. -/
  | dataDirIn
  /-- R106. -/
  | dataDirOut
  /-- R107. -/
  | ctrlRead
  /-- R108. -/
  | busSample
  /-- R109. -/
  | rwDrive (b : Bool)
  /-- R110. -/
  | rwRelease
  /-- R111. -/
  | busreqSet (b : Bool)
  /-- R112. -/
  | irqSet (b : Bool)
  /-- R113. -/
  | cartLinesSet (v : CartLines)
  /-- R114. -/
  | busSafeIdle
  /-- R117. -/
  | measureInterval
  /-- R118. -/
  | classifySample (c : Option Nat)
  /-- R120. -/
  | classifyClock
  /-- R122. -/
  | waitValidClock
  /-- R123. -/
  | armRefs (p : Profile) (offset : Int)
  /-- R125. -/
  | now
  /-- R126. -/
  | resync
  /-- R127. -/
  | waitUntil (t : Time)
  /-- R133. -/
  | installHandler (h : Handler)
  /-- R134. -/
  | enableInterface (mode : Handler) (offset : Int)
  /-- R135. -/
  | disableInterface
  /-- R144. -/
  | cycleTerminal (h : Pair)
  /-- R145. -/
  | cycleComposite (h : Pair)
  /-- R176. -/
  | trigger
  /-- R204. -/
  | finalize (eob ve : Bool)
  deriving DecidableEq, Repr, Inhabited

/-- What an internal operation carries beside its number (30_encoding.md R91). -/
inductive Arg where
  | none
  | addr (a : Addr)
  | byte (v : Byte)
  | flag (b : Bool)
  | lines (v : CartLines)
  | interval (c : Option Nat)
  | arm (p : Profile) (offset : Int)
  | time (t : Time)
  | handler (h : Handler)
  | mode (h : Handler) (offset : Int)
  | pair (h : Pair)
  | status (eob ve : Bool)
  deriving DecidableEq, Repr, Inhabited

/-- An encoded operation: the four formats of 30_encoding.md R82. -/
inductive OpWord where
  | hostCyc (w : CycleWord)
  | cmdType (b : Byte)
  | dmaState (s : BitVec 3)
  | op8 (n : Byte) (arg : Arg)
  deriving DecidableEq, Repr, Inhabited

end Sys2Proof
end

