-- ==== Sys2Proof/Config.lean ====
section
/-! DEFINITION. The parameters of 00_scope.md R12, the constants the spec decides, and the free values: the draws of
the environment and the cartridge handler pairs, of which no proof can see a value. -/

namespace Sys2Proof

/-- The four installed sizes that R12 admits for `REU_SIZE`. -/
inductive ReuSize where
  | kb64
  | kb128
  | kb256
  | kb512
  deriving DecidableEq, Repr, Inhabited

/-- `REU_SIZE` in bytes. -/
def ReuSize.bytes : ReuSize → Nat
  | .kb64 => 65536
  | .kb128 => 131072
  | .kb256 => 262144
  | .kb512 => 524288

/-- `REU_SIZE - 1` as the mask of 10_state.md R51. -/
def ReuSize.mask : ReuSize → PerAddr
  | .kb64 => 0x00FFFF
  | .kb128 => 0x01FFFF
  | .kb256 => 0x03FFFF
  | .kb512 => 0x07FFFF

/-- One profile's base offsets, in counter cycles from the start edge (R12 `BASE_A`, `BASE_B`). -/
structure Base where
  dmaHigh : Nat
  high : Nat
  low : Nat
  deriving DecidableEq, Repr, Inhabited

/-- The parameters that R12 leaves OPEN, and `TOL`. Constant for a machine (log entry 1). -/
structure Params where
  fMcu : Nat
  tol : Nat
  classifyRun : Nat
  classifyMax : Nat
  measureTimeout : Nat
  baseA : Base
  baseB : Base
  timerBits : Nat
  reuSize : ReuSize
  dmaMarksModified : Bool
  deriving DecidableEq, Repr, Inhabited

namespace Config

/-- `F_A`, Hz (R12, D57). -/
def fA : Nat := 985248

/-- `F_B`, Hz (R12, D57). -/
def fB : Nat := 1022727

/-- `OFFSET_MIN` (R12). -/
def offsetMin : Int := -30

/-- `OFFSET_MAX` (R12). -/
def offsetMax : Int := 30

/-- What a byte of peripheral memory that nothing has written reads as. DESIGN CHOICE, unsafe (log entry 4). -/
def unlistedByte : Byte := 0

end Config

/-- R12's constraint on one profile's base offsets, for a nominal frequency `f`; and every instant fits the UInt32
of 10_state.md R21. -/
def Base.admitted (b : Base) (f fMcu : Nat) : Bool :=
  30 ≤ b.dmaHigh && b.dmaHigh < b.high && b.high < b.low && (b.low + 30) * f < fMcu && b.low + 30 < 4294967296

/-- R12's constraints on the parameters. The longer nominal period is profile A's. -/
def Params.admitted (p : Params) : Bool :=
  0 < p.fMcu && 40 ≤ p.tol && p.tol < 60 && 1 ≤ p.classifyRun && p.classifyRun ≤ p.classifyMax &&
    2 * p.fMcu < p.measureTimeout * Config.fA && p.baseA.admitted Config.fA p.fMcu &&
    p.baseB.admitted Config.fB p.fMcu && 16 ≤ p.timerBits

/-- The example parameters of 95_test_vectors.md, and admitted values where it names none (log entry 1). -/
def Params.example : Params where
  fMcu := 168000000
  tol := 50
  classifyRun := 3
  classifyMax := 8
  measureTimeout := 1000
  baseA := ⟨40, 90, 130⟩
  baseB := ⟨40, 85, 125⟩
  timerBits := 16
  reuSize := .kb512
  dmaMarksModified := false

/-- The times of one host cycle in the timed refinement, in counter cycles from its start edge `E` (00_scope.md R11,
60_exceptions.md R219): the next start edge, the call of the handler's second wait, the release of a driven data bus, the
end of the handler. The first wait is called at the cycle's `latency`. Each time is a claim of the environment and is
checked alone: the record need not be in the handler's order, and `period` is not tied to the next cycle's arrival (log
entry 9). -/
structure CycleTiming where
  period : Nat
  second : Nat
  release : Nat
  done : Nat
  deriving DecidableEq, Repr, Inhabited

/-- What the environment supplies for one host clock cycle: the bus inputs (10_state.md R34), the counter cycles from
the last event to the start edge, those from the edge to the handler's RESYNC, and, in a timed run, the cycle's times. -/
structure HostCycle where
  addr : Addr
  ctrl : Ctrl
  data : Byte
  edge : Nat
  latency : Nat
  timing : Option CycleTiming
  deriving DecidableEq, Repr, Inhabited

/-- The own state of the cartridge variant installed last: an opaque code, and one modified flag per memory region the
variant emulates (42_dispatch.md R136, R137; 10_state.md R56; log entry 10). -/
structure CartState where
  code : Nat
  modified : List Bool
  deriving DecidableEq, Repr, Inhabited

/-- What a cartridge read handler answers (R136): the byte if it claims the cycle, its state, its output lines. -/
structure CartRead where
  data : Option Byte
  cart : CartState
  lines : CartLines
  deriving DecidableEq, Repr, Inhabited

/-- What a cartridge write handler answers (R137): whether it handled the cycle, its state, its output lines. -/
structure CartWrite where
  handled : Bool
  cart : CartState
  lines : CartLines
  deriving DecidableEq, Repr, Inhabited

namespace Config

/-- FREE VALUE: the inputs of a host cycle that no event of the state describes (log entry 5). -/
opaque freeCycle : Nat → HostCycle

/-- FREE VALUE: an interval measurement that the state does not list (41_phase_tracker.md R117; log entry 6). -/
opaque freeInterval : Nat → Option Nat

/-- FREE VALUE: a byte the spec leaves unspecified: `swapLatch` at peripheral-mode entry (70_reset_and_hazards.md R244;
log entry 16). -/
opaque freeByte : Nat → Byte

/-- FREE VALUE: the own state that cartridge variant `n` is installed with, for the `k`-th draw; the spec names none
(42_dispatch.md R134; log entry 10). -/
opaque cartEntry : Nat → Nat → CartState

/-- FREE VALUE: the read handler of cartridge variant `n`, a total function (42_dispatch.md R147; log entry 10). -/
opaque cartRead : Nat → CartState → Ctrl → Addr → CartRead

/-- FREE VALUE: the write handler of cartridge variant `n`, a total function (42_dispatch.md R147; log entry 10). -/
opaque cartWrite : Nat → CartState → Ctrl → Addr → Byte → CartWrite

end Config

end Sys2Proof
end

