-- ==== Sys2Proof/Machine/State.lean ====
section
/-! DEFINITION. The whole state of the core as plain data (10_state.md R19), the environment's inputs that drive it, the
reasons a step can stop (60_exceptions.md R213), and the state after power-on (70_reset_and_hazards.md R242). -/

namespace Sys2Proof.Machine

/-- 10_state.md R21: the ClockPhaseReference. -/
structure ClockRef where
  dmaHigh : Time
  high : Time
  low : Time
  fine : Int
  armed : Bool
  deriving DecidableEq, Repr, Inhabited

/-- 10_state.md R25. -/
inductive IfState where
  | idle
  | active
  deriving DecidableEq, Repr, Inhabited

/-- The host-writable registers, indices 1 to 10 (10_state.md R35, R45). -/
inductive Reg where
  | command
  | hostLo
  | hostHi
  | perLo
  | perHi
  | bank
  | lenLo
  | lenHi
  | imr
  | acr
  deriving DecidableEq, Repr, Inhabited

/-- The register file's raw bytes (10_state.md R35). Indices 11 to 31 hold no storage (R44). -/
structure RegFile where
  status : Byte
  command : Byte
  hostLo : Byte
  hostHi : Byte
  perLo : Byte
  perHi : Byte
  bank : Byte
  lenLo : Byte
  lenHi : Byte
  imr : Byte
  acr : Byte
  deriving DecidableEq, Repr, Inhabited

/-- The shadow copy, indices 1 to 10; there is no shadow of STATUS (10_state.md R45). -/
structure Shadow where
  command : Byte
  hostLo : Byte
  hostHi : Byte
  perLo : Byte
  perHi : Byte
  bank : Byte
  lenLo : Byte
  lenHi : Byte
  imr : Byte
  acr : Byte
  deriving DecidableEq, Repr, Inhabited

/-- Peripheral memory (10_state.md R49): the bytes that differ from `Config.unlistedByte`, by rising offset. -/
abbrev Mem := List Host.Cell

/-- The canonical form of a memory: offsets strictly rising, and no entry that an unlisted offset would read as. -/
abbrev Mem.wf (m : Mem) : Prop :=
  m.Pairwise (fun x y => x.1 < y.1) ∧ ∀ c ∈ m, c.2 ≠ Config.unlistedByte

/-- The inputs of the current host cycle (10_state.md R34), with the counter cycles from its start edge to the handler's
RESYNC and, in a timed run, its times (00_scope.md R11). -/
structure BusIn where
  addr : Addr
  ctrl : Ctrl
  data : Byte
  latency : Nat
  timing : Option CycleTiming
  deriving DecidableEq, Repr, Inhabited

/-- A write by external code to core state: a direct one (10_state.md R55), or of the references, which only ARM_REFS writes
(R21; 60_exceptions.md R226, R235; log entry 29). -/
inductive ExtWrite where
  | status (v : Byte)
  | reg (r : Reg) (v : Byte)
  | shadow (r : Reg) (v : Byte)
  | mem (p : Nat) (v : Byte)
  | slot (h : Handler)
  | savedSlot (h : Handler)
  | ref (p : Profile) (offset : Int)
  deriving DecidableEq, Repr, Inhabited

/-- An emulated memory region with a modified flag (10_state.md R56): peripheral memory, or the `i`-th region of the
cartridge variant installed last. -/
inductive Region where
  | peripheral
  | cart (i : Nat)
  deriving DecidableEq, Repr, Inhabited

/-- What happens next, outside a handler: a host clock cycle (00_scope.md R11), one operation issued by itself (log entry
13), a write by external code, the collaborator's mark operation on a region (10_state.md R56). -/
inductive Event where
  | cycle (c : HostCycle)
  | op (w : OpWord)
  | extWrite (x : ExtWrite)
  | mark (r : Region)
  deriving DecidableEq, Repr, Inhabited

/-- What the last operation returned: the results that 40_bus_primitives.md, 41_phase_tracker.md and
43_reu_registers.md give. Bookkeeping of the model (log entry 15). -/
inductive Ret where
  | none
  | byte (v : Byte)
  | addr (a : Addr)
  | ctrl (c : Ctrl)
  | sample (a : Addr) (c : Ctrl)
  | interval (c : Option Nat)
  | profile (p : Profile)
  /-- `Ok(P)` or `Fail` (41_phase_tracker.md R120) -/
  | classified (r : Option Profile)
  | time (t : Time)
  deriving DecidableEq, Repr, Inhabited

/-- The observation of a host cycle (42_dispatch.md R146): the word sampled, or the DMA address driven; the byte the core
drove; the data byte a write cycle carried. A DMA write event `(a, v)` is `dmaAddr`, `driven`. Bookkeeping (log entry 15). -/
structure Obs where
  word : Option CycleWord
  dmaAddr : Option Addr
  driven : Option Byte
  data : Option Byte
  deriving DecidableEq, Repr, Inhabited

/-- The state of the machine. -/
@[ext]
structure State where
  /-- the parameters of 00_scope.md R12, constant -/
  cfg : Params
  /-- R20 -/
  profile : Profile
  /-- R21 -/
  ref : ClockRef
  /-- R22 -/
  cnt : Time
  /-- R23; below 2^TIMER_BITS -/
  timer : Nat
  /-- R23; below 2^TIMER_BITS -/
  cap : Nat
  /-- R24 -/
  led : Bool
  /-- R25 -/
  ifState : IfState
  /-- R26 -/
  cycIrqEnable : Bool
  /-- R26 -/
  cycIrqPending : Bool
  /-- R27 -/
  slot : Handler
  /-- R28 -/
  savedSlot : Handler
  /-- R29 -/
  addrDir : Dir
  /-- R29 -/
  addrLatch : Addr
  /-- R30 -/
  dataDir : Dir
  /-- R30 -/
  dataLatch : Byte
  /-- R31 -/
  rwDir : Dir
  /-- R31; true is 1, a read -/
  rwLatch : Bool
  /-- R32 -/
  busReq : Bool
  /-- R32 -/
  irqOut : Bool
  /-- R33 -/
  cartLines : CartLines
  /-- R35 -/
  reg : RegFile
  /-- R45 -/
  shadow : Shadow
  /-- R49 -/
  mem : Mem
  /-- R50 -/
  swapLatch : Byte
  /-- R56, the peripheral memory's flag -/
  regionModified : Bool
  /-- 42_dispatch.md R136, R137; R56 for the variants' regions -/
  cart : CartState
  /-- R34: the environment's inputs of the current host cycle (log entries 5, 9) -/
  inp : BusIn
  /-- the events still to come (log entry 5) -/
  env : List Event
  /-- the interval measurements still to come (log entry 6) -/
  intervals : List (Option Nat)
  /-- the counter that free inputs are drawn with (log entry 5) -/
  freeIdx : Nat
  /-- bookkeeping (log entry 15) -/
  ret : Ret
  /-- bookkeeping (log entry 15) -/
  obs : Obs
  deriving DecidableEq, Repr, Inhabited

/-- The buses a CONTENTION fault names. -/
inductive BusName where
  | address
  | data
  | rw
  deriving DecidableEq, Repr

/-- The conditions of 60_exceptions.md R219. -/
inductive TimingRule where
  /-- (a) a WAIT_UNTIL outside the current host period -/
  | waitWindow
  /-- (b) a compare-match while the pending flag is still set -/
  | missedCycle
  /-- (c) the handler not complete by the next sample point -/
  | overrun
  /-- (d) the data bus still driven at the next start edge -/
  | lateRelease
  deriving DecidableEq, Repr

/-- The operations that can fault UNARMED (60_exceptions.md R225). -/
inductive UnarmedOp where
  | armRefs
  | hostCycle
  | dmaCycle
  deriving DecidableEq, Repr

/-- The state that external code wrote while the interrupt was enabled (60_exceptions.md R226). -/
inductive Item where
  | reg
  | shadow
  | mem
  | slot
  | savedSlot
  | ref
  /-- a modified flag, by the collaborator's mark (log entry 25) -/
  | regionModified
  deriving DecidableEq, Repr

/-- The model faults of 60_exceptions.md R213. Each carries its recorded info and, last, the state it left: the faulting
operation changed nothing, the earlier operations of the run keep their effect, the pins keep their levels (R217). All are
safe: the device does something the source gives no meaning. -/
inductive Fault where
  /-- Code 1, raised by a wait and by the taking and the end of a handler, in a host cycle that carries a timing record
  (R219). Safe. -/
  | timing (rule : TimingRule) (edge target : Time) (left : State)
  /-- Code 2, raised by ADDR_DIR_OUT, RW_DRIVE and DATA_DIR_OUT, and by a step and by a host cycle that find the core driving
  a bus the host drives (R222, 40_bus_primitives.md R115). Safe. -/
  | contention (bus : BusName) (word : CycleWord) (left : State)
  /-- Codes 1 and 2: the data bus still driven at the next start edge, which is TIMING (R219(d)) and CONTENTION (R222), with
  the info of both (log entry 9). Raised by a late release of the data bus, and by a host cycle that finds the data bus
  driven, where a timing record is carried. Safe. -/
  | stillDriven (edge target : Time) (word : CycleWord) (left : State)
  /-- Code 3, raised by ARM_REFS (R224). Safe. -/
  | badOffset (offset : Int) (left : State)
  /-- Code 4, raised by ARM_REFS and by a handler's wait on a phase reference (R225, 41_phase_tracker.md R121). Safe. -/
  | unarmed (op : UnarmedOp) (left : State)
  /-- Code 5, raised by external writes, the collaborator's mark, INSTALL_HANDLER and ARM_REFS while the interrupt is
  enabled (R226). Safe. -/
  | unmaskedMutation (item : Item) (left : State)
  /-- Code 6, raised by a cycle interrupt with an empty slot (R227). Safe. -/
  | noHandler (left : State)
  /-- Code 8, raised by TRIGGER and the CMD operations while `slot = dma(_)` (R229). Safe. -/
  | dmaRetrigger (command : Byte) (left : State)
  /-- No code of R213: an external write to an offset outside peripheral memory (20_memory.md R61, R72). Safe. -/
  | noSuchByte (offset : Nat) (left : State)
  deriving DecidableEq, Repr

/-- The forms the model does not admit (60_exceptions.md R228, code 7 REFUSED). -/
inductive Refusal where
  /-- Raised by an arm of exec whose instruction has no meaning yet. Safe. -/
  | notModelled (mnemonic : String)
  /-- Raised by a step on an operation number R91 does not assign (R228). Safe. -/
  | unassignedNumber (n : Byte)
  /-- Raised by a step on a number whose argument is not of the kind R91 gives it. Safe. -/
  | wrongArgument (n : Byte)
  /-- Raised by a step on sequencer code 100 or 101 (R94, R228). Safe. -/
  | reservedState (s : BitVec 3)
  /-- Raised by ENABLE_INTERFACE with mode `none` or `dma(_)` (R228). Safe. -/
  | badMode (h : Handler)
  /-- Raised by an external write of `dma(_)` to savedSlot, which never holds one (10_state.md R28). Safe. -/
  | savedDma (s : BitVec 3)
  deriving DecidableEq, Repr

/-- The register file at peripheral-mode entry (70_reset_and_hazards.md R244). -/
def RegFile.entry : RegFile := ⟨0x00, 0x10, 0x00, 0x00, 0x00, 0x00, 0x00, 0xFF, 0xFF, 0x00, 0x00⟩

/-- The shadow copy at peripheral-mode entry: `shadow[i] = reg[i]` (70_reset_and_hazards.md R244). -/
def Shadow.entry : Shadow := ⟨0x10, 0x00, 0x00, 0x00, 0x00, 0x00, 0xFF, 0xFF, 0x00, 0x00⟩

/-- The control lines of an idle host cycle: a read that selects nothing. -/
def Ctrl.idle : Ctrl := ⟨true, false, false, false, false, true, 0⟩

/-- POWER_ON (70_reset_and_hazards.md R242) for given parameters and the launch parameter `mem0`, the contents of peripheral
memory (10_state.md R49), in canonical form. What R242 leaves unspecified has the values of log entries 2 (register file,
shadow, region flag) and 3 (counters, latches, references). -/
def State.powerOn (cfg : Params) (mem0 : Mem) : State where
  cfg := cfg
  profile := .unclassified
  ref := ⟨0, 0, 0, 0, false⟩
  cnt := 0
  timer := 0
  cap := 0
  led := false
  ifState := .idle
  cycIrqEnable := false
  cycIrqPending := false
  slot := .none
  savedSlot := .none
  addrDir := .input
  addrLatch := 0
  dataDir := .input
  dataLatch := 0
  rwDir := .input
  rwLatch := false
  busReq := false
  irqOut := false
  cartLines := .deasserted
  reg := RegFile.entry
  shadow := Shadow.entry
  mem := mem0
  swapLatch := 0
  regionModified := false
  cart := ⟨0, []⟩
  inp := ⟨0, Ctrl.idle, 0, 0, none⟩
  env := []
  intervals := []
  freeIdx := 0
  ret := .none
  obs := ⟨none, none, none, none⟩

/-- The machine right after power-on, with the example parameters (log entry 1) and no image in memory (log entry 4). -/
def State.reset : State := State.powerOn Params.example []

end Sys2Proof.Machine
end

