-- ==== Sys2Proof/Machine/Flags.lean ====
section
/-! DEFINITION. The status flags, the interrupt condition, the COMMAND and length predicates (10_state.md R36, R37,
R52; 43_reu_registers.md R180; 44_dma_sequencer.md R193, R206). -/

namespace Sys2Proof.Machine

/-- STATUS.IP (R36). -/
def ipBit : Byte := 0x80

/-- STATUS.EOB (R36). -/
def eobBit : Byte := 0x40

/-- STATUS.VE (R36). -/
def veBit : Byte := 0x20

/-- `STATUS_READ_CLEAR` (00_scope.md R12, D11). -/
def statusReadClear : Byte := 0xE0

/-- The set `st ⊆ {EOB, VE}` as STATUS bits (44_dma_sequencer.md R204). -/
def statusBits (eob ve : Bool) : Byte := (if eob then eobBit else 0) ||| (if ve then veBit else 0)

/-- The interrupt condition of R206: IE, and an enabled condition that STATUS shows. -/
def irqCondition (imr status : Byte) : Bool := imr.getLsbD 7 && (imr &&& status &&& 0x60) != 0

/-- COMMAND.EXEC (R37). -/
def execBit (command : Byte) : Bool := command.getLsbD 7

/-- COMMAND.AUTOLOAD, the view `auto` (R37, R51). -/
def autoloadBit (command : Byte) : Bool := command.getLsbD 5

/-- COMMAND.FF00: true is an immediate start (R37). -/
def immediateBit (command : Byte) : Bool := command.getLsbD 4

/-- COMMAND.TYPE, the view `type` (R37, R51). -/
def typeBits (command : Byte) : BitVec 2 := command.extractLsb' 0 2

/-- ARMED (R180), a view of the live COMMAND register. -/
def armed (command : Byte) : Bool := execBit command && !immediateBit command

/-- COMMAND as FINALIZE leaves it: EXEC cleared, the deferred-trigger option off (R204). -/
def commandDone (command : Byte) : Byte := (command &&& ~~~0x80#8) ||| 0x10

/-- LAST (R193): the remaining length is 1. -/
def lastByte (len : BitVec 16) : Bool := len == 1

end Sys2Proof.Machine
end

