-- ==== Sys2Proof/Machine/Operands.lean ====
section
/-! DEFINITION. The operand forms: registers by index, read views, half-autoload partners, the descriptor views, the
cycle word, sequencer codes, phase references (10_state.md R47, R48, R51; 30_encoding.md R83, R90). -/

namespace Sys2Proof.Machine

/-- `reg[i]` for a host-writable register. -/
def RegFile.get (f : RegFile) : Reg → Byte
  | .command => f.command
  | .hostLo => f.hostLo
  | .hostHi => f.hostHi
  | .perLo => f.perLo
  | .perHi => f.perHi
  | .bank => f.bank
  | .lenLo => f.lenLo
  | .lenHi => f.lenHi
  | .imr => f.imr
  | .acr => f.acr

/-- `reg[i] <- v`. -/
def RegFile.put (f : RegFile) (r : Reg) (v : Byte) : RegFile :=
  match r with
  | .command => { f with command := v }
  | .hostLo => { f with hostLo := v }
  | .hostHi => { f with hostHi := v }
  | .perLo => { f with perLo := v }
  | .perHi => { f with perHi := v }
  | .bank => { f with bank := v }
  | .lenLo => { f with lenLo := v }
  | .lenHi => { f with lenHi := v }
  | .imr => { f with imr := v }
  | .acr => { f with acr := v }

/-- `shadow[i]`. -/
def Shadow.get (f : Shadow) : Reg → Byte
  | .command => f.command
  | .hostLo => f.hostLo
  | .hostHi => f.hostHi
  | .perLo => f.perLo
  | .perHi => f.perHi
  | .bank => f.bank
  | .lenLo => f.lenLo
  | .lenHi => f.lenHi
  | .imr => f.imr
  | .acr => f.acr

/-- `shadow[i] <- v`. -/
def Shadow.put (f : Shadow) (r : Reg) (v : Byte) : Shadow :=
  match r with
  | .command => { f with command := v }
  | .hostLo => { f with hostLo := v }
  | .hostHi => { f with hostHi := v }
  | .perLo => { f with perLo := v }
  | .perHi => { f with perHi := v }
  | .bank => { f with bank := v }
  | .lenLo => { f with lenLo := v }
  | .lenHi => { f with lenHi := v }
  | .imr => { f with imr := v }
  | .acr => { f with acr := v }

/-- `partner(i)` of 43_reu_registers.md R165: 2 and 3, 4 and 5, 7 and 8; no other index has one. -/
def partner : Reg → Option Reg
  | .hostLo => some .hostHi
  | .hostHi => some .hostLo
  | .perLo => some .perHi
  | .perHi => some .perLo
  | .lenLo => some .lenHi
  | .lenHi => some .lenLo
  | .command => none
  | .bank => none
  | .imr => none
  | .acr => none

/-- `FIXED_MASK[i]` for a host-writable register (R48). -/
def fixedMask : Reg → Byte
  | .command => 0x00
  | .hostLo => 0x00
  | .hostHi => 0x00
  | .perLo => 0x00
  | .perHi => 0x00
  | .bank => 0xF8
  | .lenLo => 0x00
  | .lenHi => 0x00
  | .imr => 0x1F
  | .acr => 0x3F

/-- `FIXED_MASK[0]` (R48). -/
def statusMask : Byte := 0x10

/-- What an index without storage reads as (R44, R47). -/
def unusedView : Byte := 0xFF

/-- `view(i) = reg[i] | FIXED_MASK[i]` (R47). -/
def RegFile.view (f : RegFile) (r : Reg) : Byte := f.get r ||| fixedMask r

/-- The view of STATUS (R47). -/
def RegFile.statusView (f : RegFile) : Byte := f.status ||| statusMask

/-- `H = {reg[3], reg[2]}` (R51). -/
def RegFile.hostAddr (f : RegFile) : Addr := f.hostHi ++ f.hostLo

/-- `P = {reg[6], reg[5], reg[4]} & (REU_SIZE - 1)` (R51). -/
def RegFile.perAddr (f : RegFile) (size : ReuSize) : PerAddr := (f.bank ++ f.perHi ++ f.perLo) &&& size.mask

/-- `L = {reg[8], reg[7]}` (R51). -/
def RegFile.length (f : RegFile) : BitVec 16 := f.lenHi ++ f.lenLo

/-- `incH` (R51): ACR.FIX_HOST is 0. -/
def RegFile.incH (f : RegFile) : Bool := !f.acr.getLsbD 7

/-- `incP` (R51): ACR.FIX_PERIPH is 0. -/
def RegFile.incP (f : RegFile) : Bool := !f.acr.getLsbD 6

/-- Writes a host address into its register pair. -/
def RegFile.putHostAddr (f : RegFile) (a : Addr) : RegFile :=
  { f with hostLo := a.extractLsb' 0 8, hostHi := a.extractLsb' 8 8 }

/-- Writes a peripheral address into its three registers. -/
def RegFile.putPerAddr (f : RegFile) (p : PerAddr) : RegFile :=
  { f with perLo := p.extractLsb' 0 8, perHi := p.extractLsb' 8 8, bank := p.extractLsb' 16 8 }

/-- Writes a length into its register pair. -/
def RegFile.putLength (f : RegFile) (l : BitVec 16) : RegFile :=
  { f with lenLo := l.extractLsb' 0 8, lenHi := l.extractLsb' 8 8 }

/-- The cycle word `W = {io2, rw, A}` (30_encoding.md R83). -/
def wordOf (a : Addr) (c : Ctrl) : CycleWord := BitVec.ofBool c.io2 ++ BitVec.ofBool c.rw ++ a

/-- The register index of a host address, `A[4:0]` (20_memory.md R59). -/
def indexOf (a : Addr) : BitVec 5 := a.extractLsb' 0 5

/-- The mirror bits of a host address, `A[15:5]` (30_encoding.md R86). -/
def mirrorOf (a : Addr) : BitVec 11 := a.extractLsb' 5 11

/-- STASH, 30_encoding.md R90. -/
def stashCode : BitVec 3 := 0

/-- FETCH, R90. -/
def fetchCode : BitVec 3 := 1

/-- SWAP1, R90. -/
def swap1Code : BitVec 3 := 2

/-- VERIFY, R90. -/
def verifyCode : BitVec 3 := 3

/-- SWAP2, R90. -/
def swap2Code : BitVec 3 := 6

/-- VERIFY_ERR, R90. -/
def verifyErrCode : BitVec 3 := 7

/-- The initial sequencer state of a transfer TYPE (R89): `s[1:0] = TYPE`, `s[2] = 0` (R90). -/
def initialCode (type : BitVec 2) : BitVec 3 := 0#1 ++ type

/-- Whether a slot holds a DMA sequencer state. -/
def slotIsDma : Handler → Bool
  | .dma _ => true
  | .none => false
  | .terminal _ => false
  | .composite _ => false

/-- The cartridge variant of a handler pair. -/
def pairVariant : Pair → Option Nat
  | .cart n => some n
  | .reu => none

/-- `mode uses REU` (42_dispatch.md R134): `terminal(REU)` and every `composite(h)`. -/
def usesReu : Handler → Bool
  | .terminal h => h == .reu
  | .composite _ => true
  | .none => false
  | .dma _ => false

/-- The cartridge variant of a mode, if its pair is one (10_state.md R27). -/
def modeVariant : Handler → Option Nat
  | .terminal h => pairVariant h
  | .composite h => pairVariant h
  | .none => none
  | .dma _ => none

/-- The base offsets of a classified profile; none while unclassified (41_phase_tracker.md R123). -/
def baseOf (cfg : Params) : Profile → Option Base
  | .a => some cfg.baseA
  | .b => some cfg.baseB
  | .unclassified => none

/-- One reference instant: `BASE_P.x + offset` as a UInt32 (41_phase_tracker.md R123). -/
def refTime (base : Nat) (offset : Int) : Time := BitVec.ofInt 32 (base + offset)

end Sys2Proof.Machine
end

