-- ==== Sys2Proof/Machine/Ops.lean ====
section
/-! DEFINITION. The named operations over state that the meanings share: memory, time, the bus primitives, the entry of
a handler, host and peripheral accesses of DMA, the register write with half-autoload, the trigger, and FINALIZE. -/

namespace Sys2Proof.Machine

/-- What an operation answers. -/
abbrev Out := Host.Outcome State Fault Refusal

/-- What an operation with a result answers. -/
abbrev OutV (α : Type) := Host.Outcome (α × State) Fault Refusal

/-- Runs `f` on the next state; a fault or refusal ends the run (60_exceptions.md R217, R218). -/
def andThen {α β : Type} (o : Host.Outcome α Fault Refusal) (f : α → Host.Outcome β Fault Refusal) :
    Host.Outcome β Fault Refusal :=
  match o with
  | .next x => f x
  | .fault r => .fault r
  | .refused r => .refused r

/-- Runs `f` unless a fault was found. -/
def unlessFault {α : Type} (o : Option Fault) (f : Host.Outcome α Fault Refusal) : Host.Outcome α Fault Refusal :=
  match o with
  | some r => .fault r
  | none => f

/-- The codes a fault has in the table of 60_exceptions.md R213: one, but for the condition that stands in two rows of it
(log entry 9), and none for the model's own. -/
def Fault.codes : Fault → List Nat
  | .timing _ _ _ _ => [1]
  | .contention _ _ _ => [2]
  | .stillDriven _ _ _ _ => [1, 2]
  | .badOffset _ _ => [3]
  | .unarmed _ _ => [4]
  | .unmaskedMutation _ _ => [5]
  | .noHandler _ => [6]
  | .dmaRetrigger _ _ => [8]
  | .noSuchByte _ _ => []

/-- The info of a fault that is TIMING: the rule broken, the cycle's `E` and the target (60_exceptions.md R213, R219). -/
def Fault.timingInfo : Fault → Option (TimingRule × Time × Time)
  | .timing rule edge target _ => some (rule, edge, target)
  | .stillDriven edge target _ _ => some (.lateRelease, edge, target)
  | .contention _ _ _ => none
  | .badOffset _ _ => none
  | .unarmed _ _ => none
  | .unmaskedMutation _ _ => none
  | .noHandler _ => none
  | .dmaRetrigger _ _ => none
  | .noSuchByte _ _ => none

/-- The info of a fault that is CONTENTION: the bus and the cycle word (60_exceptions.md R213, R222). -/
def Fault.contentionInfo : Fault → Option (BusName × CycleWord)
  | .contention bus word _ => some (bus, word)
  | .stillDriven _ _ word _ => some (.data, word)
  | .timing _ _ _ _ => none
  | .badOffset _ _ => none
  | .unarmed _ _ => none
  | .unmaskedMutation _ _ => none
  | .noHandler _ => none
  | .dmaRetrigger _ _ => none
  | .noSuchByte _ _ => none

/-- The state a fault left (60_exceptions.md R217). -/
def Fault.left : Fault → State
  | .timing _ _ _ s => s
  | .contention _ _ s => s
  | .stillDriven _ _ _ s => s
  | .badOffset _ s => s
  | .unarmed _ s => s
  | .unmaskedMutation _ s => s
  | .noHandler s => s
  | .dmaRetrigger _ s => s
  | .noSuchByte _ s => s

/-- Records what an operation returned. -/
def State.setRet (s : State) (r : Ret) : State := { s with ret := r }

/-! ### Peripheral memory (20_memory.md R72) -/

/-- `MemRead(p, 1)`. -/
def memRead : Mem → Nat → Byte
  | [], _ => Config.unlistedByte
  | c :: m, p => if c.1 = p then c.2 else memRead m p

/-- Removes the entry of an offset. -/
def memErase (m : Mem) (p : Nat) : Mem := m.filter fun c => c.1 != p

/-- Lists a byte at its place among rising offsets. -/
def memInsert : Mem → Nat → Byte → Mem
  | [], p, v => [(p, v)]
  | c :: m, p, v =>
    if p < c.1 then (p, v) :: c :: m
    else if p = c.1 then (p, v) :: m
    else c :: memInsert m p v

/-- `MemWrite(p, 1, v)`, keeping the canonical form. -/
def memWrite (m : Mem) (p : Nat) (v : Byte) : Mem :=
  if v = Config.unlistedByte then memErase m p else memInsert m p v

/-! ### Time (10_state.md R22, R23; 41_phase_tracker.md R126, R127, R130) -/

/-- `d` counter cycles pass: counter and timer advance together, each modulo its width. -/
def elapse (d : Nat) (s : State) : State :=
  { s with cnt := s.cnt + BitVec.ofNat 32 d, timer := (s.timer + d) % 2 ^ s.cfg.timerBits }

/-- RESYNC (R126). A timer wider than 32 bits is taken modulo 2^32, and so is `cap` in `startEdge` (log entry 8). -/
def resync (s : State) : State := { s with cnt := BitVec.ofNat 32 s.timer }

/-- The start edge `E` of the current cycle in the counter's time base (42_dispatch.md R138, R139). -/
def startEdge (s : State) : Time :=
  if s.timer < s.cap then BitVec.ofNat 32 s.cap - BitVec.ofNat 32 (2 ^ s.cfg.timerBits) else BitVec.ofNat 32 s.cap

/-- The counter cycles since the start edge, modulo the timer's width (R130). -/
def sinceEdge (s : State) : Nat := (s.timer + 2 ^ s.cfg.timerBits - s.cap) % 2 ^ s.cfg.timerBits

/-- The duration of WAIT_UNTIL(t): up to `t`, or 0 if `t` is reached by the signed comparison (R127, R130). -/
def waitTime (t : Time) (s : State) : Time := if (s.cnt - t).msb then t - s.cnt else 0

/-- WAIT_UNTIL(t): returns when the counter has reached `t` (R127; log entry 8). -/
def waitUntil (t : Time) (s : State) : State := elapse (waitTime t s).toNat s

/-- The nominal frequency of a classified profile (R116). -/
def nominal : Profile → Option Nat
  | .unclassified => none
  | .a => some Config.fA
  | .b => some Config.fB

/-- A wait on the instant `r` of a cycle, called `call` counter cycles after its start edge, is called later than a nominal
period `F_MCU / F_P` after that instant (R128). An unclassified clock has no nominal period (log entry 9). -/
def lateCall (r call : Nat) (s : State) : Bool :=
  match nominal s.profile with
  | none => false
  | some f => decide (s.cfg.fMcu < (call - r) * f)

/-- R219(a), in a cycle that carries a timing record: a wait on `edge + r` must have its target within the current host
period and must not be called late (R128). -/
def waitFault (edge r : Time) (call : Nat) (s : State) : Option Fault :=
  match s.inp.timing with
  | none => none
  | some t =>
    if r.toNat < t.period ∧ lateCall r.toNat call s = false then none
    else some (.timing .waitWindow edge (edge + r) s)

/-- A handler may wait on the references: they are armed (60_exceptions.md R225) and the clock is classified
(41_phase_tracker.md R121, U5 of 93_implementation_defined.md; log entry 24). -/
def refsReady (s : State) : Bool := s.ref.armed && decide (s.profile ≠ .unclassified)

/-- A handler's wait on the phase reference `r` of the cycle with the start edge `edge`, called `call` counter cycles after
it: UNARMED while the references are not ready (60_exceptions.md R225), TIMING outside its window (R219). -/
def waitRef (op : UnarmedOp) (edge r : Time) (call : Nat) (s : State) : Out :=
  if refsReady s then unlessFault (waitFault edge r call s) (.next (waitUntil (edge + r) s))
  else .fault (.unarmed op s)

/-- When a timed cycle calls the second wait of its handler. -/
def secondCall (s : State) : Nat :=
  match s.inp.timing with
  | none => 0
  | some t => t.second

/-! ### Bus access primitives (40_bus_primitives.md) -/

/-- ADDR_READ (R99). -/
def addrRead (s : State) : Addr :=
  match s.addrDir with
  | .input => s.inp.addr
  | .output => s.addrLatch

/-- DATA_READ (R103). -/
def dataRead (s : State) : Byte :=
  match s.dataDir with
  | .input => s.inp.data
  | .output => s.dataLatch

/-- CTRL_READ (R107). -/
def ctrlRead (s : State) : Ctrl :=
  match s.rwDir with
  | .input => s.inp.ctrl
  | .output => { s.inp.ctrl with rw := s.rwLatch }

/-- BUS_SAMPLE (R108): one atomic sample. -/
def busSample (s : State) : Addr × Ctrl := (addrRead s, ctrlRead s)

/-- The cycle word on the pins now: the `W` of a CONTENTION fault (60_exceptions.md R222), also where no BUS_SAMPLE was made;
a line the core drives shows its own latch (log entry 28). -/
def currentWord (s : State) : CycleWord := wordOf (addrRead s) (ctrlRead s)

/-- ADDR_DRIVE (R100). -/
def addrDrive (a : Addr) (s : State) : State := { s with addrLatch := a }

/-- ADDR_DIR_IN (R101). -/
def addrDirIn (s : State) : State := { s with addrDir := .input }

/-- ADDR_DIR_OUT (R102). -/
def addrDirOut (s : State) : Out :=
  if s.busReq then .next { s with addrDir := .output } else .fault (.contention .address (currentWord s) s)

/-- DATA_DRIVE (R104). -/
def dataDrive (v : Byte) (s : State) : State := { s with dataLatch := v }

/-- DATA_DIR_IN (R105). -/
def dataDirIn (s : State) : State := { s with dataDir := .input }

/-- DATA_DIR_OUT (R106): contention in a host write cycle. -/
def dataDirOut (s : State) : Out :=
  if s.inp.ctrl.rw = false ∧ s.busReq = false then .fault (.contention .data (currentWord s) s)
  else .next { s with dataDir := .output }

/-- DATA_DIR_IN as the release of a driven data bus at the end of a cycle with the start edge `edge`. In a timed cycle a
release at or after the next start edge is late: TIMING by 42_dispatch.md R149 and 60_exceptions.md R219(d), CONTENTION by
70_reset_and_hazards.md R253 and R222, and so the fault that is both (log entry 9). -/
def releaseData (edge : Time) (s : State) : Out :=
  match s.inp.timing with
  | none => .next (dataDirIn s)
  | some t =>
    if t.period ≤ t.release then .fault (.stillDriven edge (edge + BitVec.ofNat 32 t.period) (currentWord s) s)
    else .next (dataDirIn s)

/-- RW_DRIVE (R109). -/
def rwDrive (b : Bool) (s : State) : Out :=
  if s.busReq then .next { s with rwLatch := b, rwDir := .output } else .fault (.contention .rw (currentWord s) s)

/-- RW_RELEASE (R110). -/
def rwRelease (s : State) : State := { s with rwDir := .input }

/-- BUSREQ_SET (R111). -/
def busreqSet (b : Bool) (s : State) : State := { s with busReq := b }

/-- IRQ_SET (R112). -/
def irqSet (b : Bool) (s : State) : State := { s with irqOut := b }

/-- CART_LINES_SET (R113). -/
def cartLinesSet (v : CartLines) (s : State) : State := { s with cartLines := v }

/-- BUS_SAFE_IDLE (R114). -/
def busSafeIdle (s : State) : State :=
  cartLinesSet .deasserted (irqSet false (busreqSet false (rwRelease (addrDirIn (dataDirIn s)))))

/-- The bus that the core and the host both drive in the current cycle (R115): the address bus or R/W driven without bus
ownership, the data bus driven in a host write cycle. Of several, the first of these (log entry 27). -/
def contended (s : State) : Option BusName :=
  if s.busReq then none
  else if s.addrDir = .output then some .address
  else if s.rwDir = .output then some .rw
  else if s.dataDir = .output ∧ s.inp.ctrl.rw = false then some .data
  else none

/-- CONTENTION of a cycle in which a bus is driven from both sides (R115, 60_exceptions.md R222). -/
def contention (s : State) : Option Fault := (contended s).map fun b => .contention b (currentWord s) s

/-! ### Taking the cycle interrupt (42_dispatch.md R138, R139, R146; 60_exceptions.md R233, R234)

Entry saves nothing and changes no mode and no mask; the slot is the vector. The return restores nothing. -/

/-- No observation yet (42_dispatch.md R146). -/
def noObs : Obs := ⟨none, none, none, none⟩

/-- Steps 1 and 2 of every handler: the pending flag is cleared first, then the counter is resynchronized. The start edge
is `startEdge` of the state before. The observation of the cycle begins empty. -/
def enterHandler (s : State) : State := resync { s with cycIrqPending := false, obs := noObs }

/-! ### DMA accesses (20_memory.md R71, 44_dma_sequencer.md R190) -/

/-- HostBusRead(a): address and R/W driven as a read; the byte is sampled at `E + ref.high` (D59). -/
def hostBusRead (edge : Time) (a : Addr) (s : State) : OutV Byte :=
  andThen (addrDirOut (addrDrive a s)) fun s1 =>
    andThen (rwDrive true s1) fun s2 =>
      andThen (waitRef .dmaCycle edge s2.ref.high (secondCall s2) s2) fun s3 =>
        .next (dataRead s3, { s3 with obs := { s3.obs with dmaAddr := some a } })

/-- HostBusWrite(a, v): address, R/W and data driven; data released after `E + ref.low`. The output event `(a, v)` is
recorded in `obs`. -/
def hostBusWrite (edge : Time) (a : Addr) (v : Byte) (s : State) : Out :=
  andThen (addrDirOut (addrDrive a s)) fun s1 =>
    andThen (rwDrive false s1) fun s2 =>
      andThen (dataDirOut (dataDrive v s2)) fun s3 =>
        andThen (waitRef .dmaCycle edge s3.ref.low (secondCall s3) s3) fun s4 =>
          andThen (releaseData edge s4) fun s5 =>
            .next { s5 with obs := { s5.obs with dmaAddr := some a, driven := some v } }

/-- MemRead at the masked peripheral address (R72, 10_state.md R51). -/
def perRead (s : State) : Byte := memRead s.mem (s.reg.perAddr s.cfg.reuSize).toNat

/-- MemWrite at the masked peripheral address; the region flag follows DMA_MARKS_MODIFIED (10_state.md R56). -/
def perWrite (v : Byte) (s : State) : State :=
  { s with
    mem := memWrite s.mem (s.reg.perAddr s.cfg.reuSize).toNat v
    regionModified := s.regionModified || s.cfg.dmaMarksModified }

/-- ADV_H (44_dma_sequencer.md R191). -/
def advanceHost (s : State) : State :=
  if s.reg.incH then { s with reg := s.reg.putHostAddr (s.reg.hostAddr + 1) } else s

/-- ADV_P (R192): `(P + 1) mod REU_SIZE`. -/
def advancePer (s : State) : State :=
  if s.reg.incP then
    { s with reg := s.reg.putPerAddr ((s.reg.perAddr s.cfg.reuSize + 1) &&& s.cfg.reuSize.mask) }
  else s

/-- DEC_L (R193). -/
def decLength (s : State) : State := { s with reg := s.reg.putLength (s.reg.length - 1) }

/-! ### Finalize (44_dma_sequencer.md R203 to R206) -/

/-- AUTOLOAD (R203): `reg[i] <- shadow[i]` for i = 2..8. -/
def autoload (f : RegFile) (sh : Shadow) : RegFile :=
  { f with
    hostLo := sh.hostLo
    hostHi := sh.hostHi
    perLo := sh.perLo
    perHi := sh.perHi
    bank := sh.bank
    lenLo := sh.lenLo
    lenHi := sh.lenHi }

/-- IRQ_CHECK (R206). -/
def irqCheck (s : State) : State :=
  if irqCondition s.reg.imr s.reg.status then
    irqSet true { s with reg := { s.reg with status := s.reg.status ||| ipBit } }
  else s

/-- RELEASE_AND_RESTORE (R205). -/
def releaseAndRestore (s : State) : State :=
  let s1 := dataDirIn (rwRelease (addrDirIn (busreqSet false s)))
  { s1 with slot := s1.savedSlot, savedSlot := .none }

/-- FINALIZE(st) (R204), `st` as two flags. -/
def finalize (eob ve : Bool) (s : State) : State :=
  let f := if autoloadBit s.reg.command then autoload s.reg s.shadow else s.reg
  releaseAndRestore (irqCheck
    { s with reg := { f with command := commandDone f.command, status := f.status ||| statusBits eob ve } })

/-- STEP_TAIL(next) (R194). `LAST` is of the length the cycle began with, which no step before the tail changes. -/
def stepTail (next : BitVec 3) (s : State) : State :=
  if lastByte s.reg.length then finalize true false s else { decLength s with slot := .dma next }

/-! ### Register write and trigger (43_reu_registers.md R165, R176) -/

/-- The half-autoload reload: the partner's live byte is reloaded from its shadow (R165). -/
def reloadPartner (r : Reg) (s : State) : State :=
  match partner r with
  | some j => { s with reg := s.reg.put j (s.shadow.get j) }
  | none => s

/-- REG_WRITE(i, v) (R165). -/
def regWrite (r : Reg) (v : Byte) (s : State) : State :=
  reloadPartner r { s with reg := s.reg.put r v, shadow := s.shadow.put r v }

/-- The installation of a transfer by a trigger (R176), with the initial state code `s`. -/
def startTransfer (code : BitVec 3) (s : State) : Out :=
  if slotIsDma s.slot then .fault (.dmaRetrigger s.reg.command s)
  else .next (busreqSet true { s with savedSlot := s.slot, slot := .dma code })

/-- TRIGGER (R176): the initial state is that of TYPE in the live COMMAND register (30_encoding.md R89). -/
def trigger (s : State) : Out := startTransfer (initialCode (typeBits s.reg.command)) s

/-- REU_MODE_ENTRY (70_reset_and_hazards.md R244). `mem` keeps what it holds; `swapLatch` is
unspecified, a free value (log entry 16). Of the modified flags of 10_state.md R56 it clears peripheral memory's;
`enterVariant` clears the variant's (log entry 23). -/
def reuModeEntry (s : State) : State :=
  { s with
    reg := RegFile.entry
    shadow := Shadow.entry
    swapLatch := Config.freeByte s.freeIdx
    regionModified := false
    freeIdx := s.freeIdx + 1 }

/-- A mode entered with ENABLE_INTERFACE starts a cartridge variant in it in an own state the spec does not name, a free
value (log entry 10). The modified flags of the variant's regions are false at mode entry (10_state.md R56; log entry
23). -/
def enterVariant (mode : Handler) (s : State) : State :=
  match modeVariant mode with
  | some n =>
    { s with
      cart := ⟨(Config.cartEntry n s.freeIdx).code, (Config.cartEntry n s.freeIdx).modified.map fun _ => false⟩
      freeIdx := s.freeIdx + 1 }
  | none => { s with cart := { s.cart with modified := s.cart.modified.map fun _ => false } }

/-! ### Electrical levels on the C64 expansion port (00_scope.md R15) -/

/-- The DMA line, active low. -/
def dmaLine (s : State) : Bool := !s.busReq

/-- The IRQ line, active low. -/
def irqLine (s : State) : Bool := !s.irqOut

end Sys2Proof.Machine
end

