-- ==== Sys2Proof/Machine/BusPrims.lean ====
section
/-! DEFINITION. The meanings of the bus access primitives (40_bus_primitives.md R99 to R114), each issued by itself. -/

namespace Sys2Proof.Machine

/-- R99. -/
def execAddrRead (s : State) : Out := .next (s.setRet (.addr (addrRead s)))

/-- R100. -/
def execAddrDrive (a : Addr) (s : State) : Out := .next ((addrDrive a s).setRet .none)

/-- R101. -/
def execAddrDirIn (s : State) : Out := .next ((addrDirIn s).setRet .none)

/-- R102. -/
def execAddrDirOut (s : State) : Out := andThen (addrDirOut s) fun t => .next (t.setRet .none)

/-- R103. -/
def execDataRead (s : State) : Out := .next (s.setRet (.byte (dataRead s)))

/-- R104. -/
def execDataDrive (v : Byte) (s : State) : Out := .next ((dataDrive v s).setRet .none)

/-- R105. -/
def execDataDirIn (s : State) : Out := .next ((dataDirIn s).setRet .none)

/-- R106. -/
def execDataDirOut (s : State) : Out := andThen (dataDirOut s) fun t => .next (t.setRet .none)

/-- R107. -/
def execCtrlRead (s : State) : Out := .next (s.setRet (.ctrl (ctrlRead s)))

/-- R108. -/
def execBusSample (s : State) : Out := .next (s.setRet (.sample (busSample s).1 (busSample s).2))

/-- R109. -/
def execRwDrive (b : Bool) (s : State) : Out := andThen (rwDrive b s) fun t => .next (t.setRet .none)

/-- R110. -/
def execRwRelease (s : State) : Out := .next ((rwRelease s).setRet .none)

/-- R111. -/
def execBusreqSet (b : Bool) (s : State) : Out := .next ((busreqSet b s).setRet .none)

/-- R112. -/
def execIrqSet (b : Bool) (s : State) : Out := .next ((irqSet b s).setRet .none)

/-- R113. -/
def execCartLinesSet (v : CartLines) (s : State) : Out := .next ((cartLinesSet v s).setRet .none)

/-- R114. -/
def execBusSafeIdle (s : State) : Out := .next ((busSafeIdle s).setRet .none)

end Sys2Proof.Machine
end

