-- ==== Sys2Proof/Machine/RegRead.lean ====
section
/-! DEFINITION. The register reads (43_reu_registers.md R151 to R163): what each returns and does, the REU read handler
that selects among them, and the meaning of each read issued by itself. -/

namespace Sys2Proof.Machine

/-- RD_STATUS (R152): the view before the clear; IP, EOB and VE cleared, the interrupt line deasserted. -/
def rdStatus (s : State) : Byte × State :=
  (s.reg.statusView, irqSet false { s with reg := { s.reg with status := s.reg.status &&& ~~~statusReadClear } })

/-- RD_Command (R153). -/
def rdCommand (s : State) : Byte × State := (s.reg.view .command, s)

/-- RD_HostLo (R154). -/
def rdHostLo (s : State) : Byte × State := (s.reg.view .hostLo, s)

/-- RD_HostHi (R155). -/
def rdHostHi (s : State) : Byte × State := (s.reg.view .hostHi, s)

/-- RD_PerLo (R156). -/
def rdPerLo (s : State) : Byte × State := (s.reg.view .perLo, s)

/-- RD_PerHi (R157). -/
def rdPerHi (s : State) : Byte × State := (s.reg.view .perHi, s)

/-- RD_Bank (R158). -/
def rdBank (s : State) : Byte × State := (s.reg.view .bank, s)

/-- RD_LenLo (R159). -/
def rdLenLo (s : State) : Byte × State := (s.reg.view .lenLo, s)

/-- RD_LenHi (R160). -/
def rdLenHi (s : State) : Byte × State := (s.reg.view .lenHi, s)

/-- RD_Imr (R161). -/
def rdImr (s : State) : Byte × State := (s.reg.view .imr, s)

/-- RD_Acr (R162). -/
def rdAcr (s : State) : Byte × State := (s.reg.view .acr, s)

/-- RD_UNUSED (R163), index 0x0B. -/
def rdUnused0B (s : State) : Byte × State := (unusedView, s)

/-- RD_UNUSED (R163), indices 0x0C to 0x0F. -/
def rdUnused0C0F (_sub : BitVec 2) (s : State) : Byte × State := (unusedView, s)

/-- RD_UNUSED (R163), indices 0x10 to 0x1F. -/
def rdUnused101F (_sub : BitVec 4) (s : State) : Byte × State := (unusedView, s)

/-- `RD_<i>` by index (30_encoding.md R85). -/
def readIndex (i : BitVec 5) (s : State) : Byte × State :=
  match i.toNat with
  | 0 => rdStatus s
  | 1 => rdCommand s
  | 2 => rdHostLo s
  | 3 => rdHostHi s
  | 4 => rdPerLo s
  | 5 => rdPerHi s
  | 6 => rdBank s
  | 7 => rdLenLo s
  | 8 => rdLenHi s
  | 9 => rdImr s
  | 10 => rdAcr s
  | 11 => rdUnused0B s
  | n => if n < 16 then rdUnused0C0F (i.setWidth 2) s else rdUnused101F (i.setWidth 4) s

/-- REU.read(C, A) (R151): claims every read with `io2` asserted, declines the others. -/
def reuRead (c : Ctrl) (a : Addr) (s : State) : Option Byte × State :=
  if c.io2 then (some (readIndex (indexOf a) s).1, (readIndex (indexOf a) s).2) else (none, s)

/-- A register read by itself: the byte is what the operation returns. -/
def returnByte (r : Byte × State) : Out := .next (r.2.setRet (.byte r.1))

/-- R152. -/
def execRdStatus (_mirror : BitVec 11) (s : State) : Out := returnByte (rdStatus s)

/-- R153. -/
def execRdCommand (_mirror : BitVec 11) (s : State) : Out := returnByte (rdCommand s)

/-- R154. -/
def execRdHostLo (_mirror : BitVec 11) (s : State) : Out := returnByte (rdHostLo s)

/-- R155. -/
def execRdHostHi (_mirror : BitVec 11) (s : State) : Out := returnByte (rdHostHi s)

/-- R156. -/
def execRdPerLo (_mirror : BitVec 11) (s : State) : Out := returnByte (rdPerLo s)

/-- R157. -/
def execRdPerHi (_mirror : BitVec 11) (s : State) : Out := returnByte (rdPerHi s)

/-- R158. -/
def execRdBank (_mirror : BitVec 11) (s : State) : Out := returnByte (rdBank s)

/-- R159. -/
def execRdLenLo (_mirror : BitVec 11) (s : State) : Out := returnByte (rdLenLo s)

/-- R160. -/
def execRdLenHi (_mirror : BitVec 11) (s : State) : Out := returnByte (rdLenHi s)

/-- R161. -/
def execRdImr (_mirror : BitVec 11) (s : State) : Out := returnByte (rdImr s)

/-- R162. -/
def execRdAcr (_mirror : BitVec 11) (s : State) : Out := returnByte (rdAcr s)

/-- R163. -/
def execRdUnused0B (_mirror : BitVec 11) (s : State) : Out := returnByte (rdUnused0B s)

/-- R163. -/
def execRdUnused0C0F (_mirror : BitVec 11) (sub : BitVec 2) (s : State) : Out := returnByte (rdUnused0C0F sub s)

/-- R163. -/
def execRdUnused101F (_mirror : BitVec 11) (sub : BitVec 4) (s : State) : Out := returnByte (rdUnused101F sub s)

end Sys2Proof.Machine
end

