-- ==== Sys2Proof/WellFormed.lean ====
section
/-! DEFINITION. Which operands the spec gives an operation. Every other operand is exact by its type. -/

namespace Sys2Proof

/-- 42_dispatch.md R134: `mode ∈ {terminal(h), composite(h)}`. -/
def Handler.isMode : Handler → Bool
  | .terminal _ => true
  | .composite _ => true
  | .none => false
  | .dma _ => false

/-- 30_encoding.md R94: codes 100 and 101 are reserved. -/
def Handler.unreserved : Handler → Bool
  | .dma s => s != 4#3 && s != 5#3
  | .none => true
  | .terminal _ => true
  | .composite _ => true

/-- 41_phase_tracker.md R123: the offset is bounded to ±30. -/
def offsetInRange (offset : Int) : Bool := Config.offsetMin ≤ offset && offset ≤ Config.offsetMax

/-- The operand checks: ARM_REFS takes profile A or B and an offset in range (R123), INSTALL_HANDLER no reserved
sequencer code (R94), ENABLE_INTERFACE a mode (R134). -/
def Instr.wellFormed : Instr → Bool
  | .armRefs p offset => p != .unclassified && offsetInRange offset
  | .installHandler h => h.unreserved
  | .enableInterface mode _ => mode.isMode
  | _ => true

end Sys2Proof
end

