-- ==== Sys2Proof/Decode.lean ====
section
/-! DEFINITION. The decoder and the encoder of the four formats (30_encoding.md), and the words of
spec/opcode_table.json as the host numbers them. -/

namespace Sys2Proof

/-- Why a word decodes to no operation. `declined` and `noExec` are ordinary words without an operation (30_encoding.md
R88, R89); the others are the forms a model refuses (R91, R94). -/
inductive DecodeError where
  | declined (w : CycleWord)
  | noExec (b : Byte)
  | reservedState (s : BitVec 3)
  | unassigned (n : Byte)
  | wrongArgument (n : Byte)
  deriving DecidableEq, Repr

/-- The DMA trigger address (20_memory.md R60). -/
def triggerAddr : Addr := 0xFF00

/-- 30_encoding.md R85: the register operation of a read with `io2` asserted, by index `i = W[4:0]`. -/
def decodeRead (mirror : BitVec 11) (i : BitVec 5) : Instr :=
  if i.getLsbD 4 then .rdUnused101F mirror (i.setWidth 4)
  else if i.toNat ≥ 12 then .rdUnused0C0F mirror (i.setWidth 2)
  else match i.toNat with
    | 0 => .rdStatus mirror
    | 1 => .rdCommand mirror
    | 2 => .rdHostLo mirror
    | 3 => .rdHostHi mirror
    | 4 => .rdPerLo mirror
    | 5 => .rdPerHi mirror
    | 6 => .rdBank mirror
    | 7 => .rdLenLo mirror
    | 8 => .rdLenHi mirror
    | 9 => .rdImr mirror
    | 10 => .rdAcr mirror
    | _ => .rdUnused0B mirror

/-- 30_encoding.md R85: the register operation of a write with `io2` asserted. -/
def decodeWrite (mirror : BitVec 11) (i : BitVec 5) : Instr :=
  if i.getLsbD 4 then .wrUnused101F mirror (i.setWidth 4)
  else if i.toNat ≥ 12 then .wrUnused0C0F mirror (i.setWidth 2)
  else match i.toNat with
    | 0 => .wrStatus mirror
    | 1 => .wrCommand mirror
    | 2 => .wrHostLo mirror
    | 3 => .wrHostHi mirror
    | 4 => .wrPerLo mirror
    | 5 => .wrPerHi mirror
    | 6 => .wrBank mirror
    | 7 => .wrLenLo mirror
    | 8 => .wrLenHi mirror
    | 9 => .wrImr mirror
    | 10 => .wrAcr mirror
    | _ => .wrUnused0B mirror

/-- 30_encoding.md R85 to R88: register decode first, then the trigger address, else declined. -/
def decodeHostCyc (w : CycleWord) : Except DecodeError Instr :=
  if w.getLsbD 17 then
    if w.getLsbD 16 then .ok (decodeRead (w.extractLsb' 5 11) (w.extractLsb' 0 5))
    else .ok (decodeWrite (w.extractLsb' 5 11) (w.extractLsb' 0 5))
  else if w.getLsbD 16 = false ∧ w.extractLsb' 0 16 = triggerAddr then .ok .wrFf00
  else .error (.declined w)

/-- 30_encoding.md R89: bit 7 must be 1; TYPE is bits 1:0. -/
def decodeCmdType (b : Byte) : Except DecodeError Instr :=
  if b.getLsbD 7 then
    match (b.extractLsb' 0 2).toNat with
    | 0 => .ok (.cmdStash (b.getLsbD 6) (b.getLsbD 5) (b.getLsbD 4) (b.extractLsb' 2 2))
    | 1 => .ok (.cmdFetch (b.getLsbD 6) (b.getLsbD 5) (b.getLsbD 4) (b.extractLsb' 2 2))
    | 2 => .ok (.cmdSwap (b.getLsbD 6) (b.getLsbD 5) (b.getLsbD 4) (b.extractLsb' 2 2))
    | _ => .ok (.cmdVerify (b.getLsbD 6) (b.getLsbD 5) (b.getLsbD 4) (b.extractLsb' 2 2))
  else .error (.noExec b)

/-- 30_encoding.md R90, R94. -/
def decodeDmaState (s : BitVec 3) : Except DecodeError Instr :=
  match s.toNat with
  | 0 => .ok .dmaStash
  | 1 => .ok .dmaFetch
  | 2 => .ok .dmaSwap1
  | 3 => .ok .dmaVerify
  | 6 => .ok .dmaSwap2
  | 7 => .ok .dmaVerifyErr
  | _ => .error (.reservedState s)

/-- 30_encoding.md R91: an assigned number, with its argument carried beside it. -/
def decodeOp8 (n : Byte) (arg : Arg) : Except DecodeError Instr :=
  match n.toNat, arg with
  | 0x01, .none => .ok .addrRead
  | 0x02, .addr a => .ok (.addrDrive a)
  | 0x03, .none => .ok .addrDirIn
  | 0x04, .none => .ok .addrDirOut
  | 0x05, .none => .ok .dataRead
  | 0x06, .byte v => .ok (.dataDrive v)
  | 0x07, .none => .ok .dataDirIn
  | 0x08, .none => .ok .dataDirOut
  | 0x09, .none => .ok .ctrlRead
  | 0x0A, .none => .ok .busSample
  | 0x0B, .flag b => .ok (.rwDrive b)
  | 0x0C, .none => .ok .rwRelease
  | 0x0D, .flag b => .ok (.busreqSet b)
  | 0x0E, .flag b => .ok (.irqSet b)
  | 0x0F, .lines v => .ok (.cartLinesSet v)
  | 0x10, .none => .ok .busSafeIdle
  | 0x20, .none => .ok .measureInterval
  | 0x21, .interval c => .ok (.classifySample c)
  | 0x22, .none => .ok .classifyClock
  | 0x23, .none => .ok .waitValidClock
  | 0x24, .arm p offset => .ok (.armRefs p offset)
  | 0x25, .none => .ok .now
  | 0x26, .none => .ok .resync
  | 0x27, .time t => .ok (.waitUntil t)
  | 0x40, .handler h => .ok (.installHandler h)
  | 0x41, .mode h offset => .ok (.enableInterface h offset)
  | 0x42, .none => .ok .disableInterface
  | 0x43, .pair h => .ok (.cycleTerminal h)
  | 0x44, .pair h => .ok (.cycleComposite h)
  | 0x60, .none => .ok .trigger
  | 0x61, .status eob ve => .ok (.finalize eob ve)
  | k, _ =>
    if (1 ≤ k ∧ k ≤ 0x10) ∨ (0x20 ≤ k ∧ k ≤ 0x27) ∨ (0x40 ≤ k ∧ k ≤ 0x44) ∨ k = 0x60 ∨ k = 0x61 then
      .error (.wrongArgument n)
    else .error (.unassigned n)

/-- The decoder: total on every encoded operation, rejecting by name. -/
def decode : OpWord → Except DecodeError Instr
  | .hostCyc w => decodeHostCyc w
  | .cmdType b => decodeCmdType b
  | .dmaState s => decodeDmaState s
  | .op8 n arg => decodeOp8 n arg

/-- The word of a register operation: `io2 = 1`, `rw`, the mirror bits, the index (30_encoding.md R83, R85). -/
def registerWord (rw : Bool) (mirror : BitVec 11) (i : BitVec 5) : OpWord :=
  .hostCyc (1#1 ++ BitVec.ofBool rw ++ mirror ++ i)

/-- The COMMAND byte of a trigger (30_encoding.md R89). -/
def commandWord (res6 auto ff00 : Bool) (res32 type : BitVec 2) : OpWord :=
  .cmdType (1#1 ++ BitVec.ofBool res6 ++ BitVec.ofBool auto ++ BitVec.ofBool ff00 ++ res32 ++ type)

/-- The encoder, from the same tables. -/
def encode : Instr → OpWord
  | .rdStatus mirror => registerWord true mirror 0#5
  | .rdCommand mirror => registerWord true mirror 1#5
  | .rdHostLo mirror => registerWord true mirror 2#5
  | .rdHostHi mirror => registerWord true mirror 3#5
  | .rdPerLo mirror => registerWord true mirror 4#5
  | .rdPerHi mirror => registerWord true mirror 5#5
  | .rdBank mirror => registerWord true mirror 6#5
  | .rdLenLo mirror => registerWord true mirror 7#5
  | .rdLenHi mirror => registerWord true mirror 8#5
  | .rdImr mirror => registerWord true mirror 9#5
  | .rdAcr mirror => registerWord true mirror 10#5
  | .rdUnused0B mirror => registerWord true mirror 11#5
  | .rdUnused0C0F mirror sub => registerWord true mirror (3#3 ++ sub)
  | .rdUnused101F mirror sub => registerWord true mirror (1#1 ++ sub)
  | .wrStatus mirror => registerWord false mirror 0#5
  | .wrCommand mirror => registerWord false mirror 1#5
  | .wrHostLo mirror => registerWord false mirror 2#5
  | .wrHostHi mirror => registerWord false mirror 3#5
  | .wrPerLo mirror => registerWord false mirror 4#5
  | .wrPerHi mirror => registerWord false mirror 5#5
  | .wrBank mirror => registerWord false mirror 6#5
  | .wrLenLo mirror => registerWord false mirror 7#5
  | .wrLenHi mirror => registerWord false mirror 8#5
  | .wrImr mirror => registerWord false mirror 9#5
  | .wrAcr mirror => registerWord false mirror 10#5
  | .wrUnused0B mirror => registerWord false mirror 11#5
  | .wrUnused0C0F mirror sub => registerWord false mirror (3#3 ++ sub)
  | .wrUnused101F mirror sub => registerWord false mirror (1#1 ++ sub)
  | .wrFf00 => .hostCyc (0#2 ++ triggerAddr)
  | .cmdStash res6 auto ff00 res32 => commandWord res6 auto ff00 res32 0#2
  | .cmdFetch res6 auto ff00 res32 => commandWord res6 auto ff00 res32 1#2
  | .cmdSwap res6 auto ff00 res32 => commandWord res6 auto ff00 res32 2#2
  | .cmdVerify res6 auto ff00 res32 => commandWord res6 auto ff00 res32 3#2
  | .dmaStash => .dmaState 0#3
  | .dmaFetch => .dmaState 1#3
  | .dmaSwap1 => .dmaState 2#3
  | .dmaSwap2 => .dmaState 6#3
  | .dmaVerify => .dmaState 3#3
  | .dmaVerifyErr => .dmaState 7#3
  | .addrRead => .op8 0x01 .none
  | .addrDrive a => .op8 0x02 (.addr a)
  | .addrDirIn => .op8 0x03 .none
  | .addrDirOut => .op8 0x04 .none
  | .dataRead => .op8 0x05 .none
  | .dataDrive v => .op8 0x06 (.byte v)
  | .dataDirIn => .op8 0x07 .none
  | .dataDirOut => .op8 0x08 .none
  | .ctrlRead => .op8 0x09 .none
  | .busSample => .op8 0x0A .none
  | .rwDrive b => .op8 0x0B (.flag b)
  | .rwRelease => .op8 0x0C .none
  | .busreqSet b => .op8 0x0D (.flag b)
  | .irqSet b => .op8 0x0E (.flag b)
  | .cartLinesSet v => .op8 0x0F (.lines v)
  | .busSafeIdle => .op8 0x10 .none
  | .measureInterval => .op8 0x20 .none
  | .classifySample c => .op8 0x21 (.interval c)
  | .classifyClock => .op8 0x22 .none
  | .waitValidClock => .op8 0x23 .none
  | .armRefs p offset => .op8 0x24 (.arm p offset)
  | .now => .op8 0x25 .none
  | .resync => .op8 0x26 .none
  | .waitUntil t => .op8 0x27 (.time t)
  | .installHandler h => .op8 0x40 (.handler h)
  | .enableInterface h offset => .op8 0x41 (.mode h offset)
  | .disableInterface => .op8 0x42 .none
  | .cycleTerminal h => .op8 0x43 (.pair h)
  | .cycleComposite h => .op8 0x44 (.pair h)
  | .trigger => .op8 0x60 .none
  | .finalize eob ve => .op8 0x61 (.status eob ve)

/-- The argument an internal operation takes when a table word gives it no bits: zeros (log entry 11). -/
def zeroArg (n : Byte) : Arg :=
  match n.toNat with
  | 0x02 => .addr 0
  | 0x06 => .byte 0
  | 0x0B => .flag false
  | 0x0D => .flag false
  | 0x0E => .flag false
  | 0x0F => .lines .deasserted
  | 0x21 => .interval (some 0)
  | 0x24 => .arm .a 0
  | 0x27 => .time 0
  | 0x40 => .handler .none
  | 0x41 => .mode (.terminal .reu) 0
  | 0x43 => .pair .reu
  | 0x44 => .pair .reu
  | 0x61 => .status false false
  | _ => .none

/-- The encoded operation of a table word of `nbits` bits: 18 bits are a cycle word; 8 bits a COMMAND byte (bit 7 set) or
an operation number; 3 bits a sequencer code. Eight bits that carry no assigned number are a sequencer code if they
fit in 3 bits. The codes 1, 2, 3, 6 and 7 in eight bits are operation numbers (log entry 11). -/
def tableWord (nbits w : Nat) : Option OpWord :=
  if nbits ≤ 7 then if w < 8 then some (.dmaState (BitVec.ofNat 3 w)) else none
  else if nbits ≤ 8 then
    if 256 ≤ w then none
    else if 128 ≤ w then some (.cmdType (BitVec.ofNat 8 w))
    else if w = 0 then some (.dmaState 0)
    else some (.op8 (BitVec.ofNat 8 w) (zeroArg (BitVec.ofNat 8 w)))
  else if w < 262144 then some (.hostCyc (BitVec.ofNat 18 w)) else none

/-- The instruction the decoder reads from a table word (the host's fixed name). -/
def decodeTableWord (nbits w : Nat) : Option Instr :=
  match tableWord nbits w with
  | none => none
  | some ow =>
    match decode ow with
    | .ok i => some i
    | .error _ => none

end Sys2Proof
end

