-- ==== Sys2Proof/Machine/RegWrite.lean ====
section
/-! DEFINITION. The register writes and the $FF00 write (43_reu_registers.md R164 to R180): what each does with the data
byte, the REU write handler that selects among them, and the meaning of each write issued by itself. -/

namespace Sys2Proof.Machine

/-- WR_STATUS (R164): ignored. -/
def wrStatus (_d : Byte) (s : State) : Out := .next s

/-- WR_COMMAND (R175): stored; EXEC with bit 4 starts the transfer at once. -/
def wrCommand (d : Byte) (s : State) : Out :=
  if execBit d && immediateBit d then trigger (regWrite .command d s) else .next (regWrite .command d s)

/-- WR_HostLo (R166). -/
def wrHostLo (d : Byte) (s : State) : Out := .next (regWrite .hostLo d s)

/-- WR_HostHi (R167). -/
def wrHostHi (d : Byte) (s : State) : Out := .next (regWrite .hostHi d s)

/-- WR_PerLo (R168). -/
def wrPerLo (d : Byte) (s : State) : Out := .next (regWrite .perLo d s)

/-- WR_PerHi (R169). -/
def wrPerHi (d : Byte) (s : State) : Out := .next (regWrite .perHi d s)

/-- WR_Bank (R170). -/
def wrBank (d : Byte) (s : State) : Out := .next (regWrite .bank d s)

/-- WR_LenLo (R171). -/
def wrLenLo (d : Byte) (s : State) : Out := .next (regWrite .lenLo d s)

/-- WR_LenHi (R172). -/
def wrLenHi (d : Byte) (s : State) : Out := .next (regWrite .lenHi d s)

/-- WR_Imr (R173). -/
def wrImr (d : Byte) (s : State) : Out := .next (regWrite .imr d s)

/-- WR_Acr (R174). -/
def wrAcr (d : Byte) (s : State) : Out := .next (regWrite .acr d s)

/-- WR_UNUSED (R177), index 0x0B: ignored. -/
def wrUnused0B (_d : Byte) (s : State) : Out := .next s

/-- WR_UNUSED (R177), indices 0x0C to 0x0F: ignored. -/
def wrUnused0C0F (_sub : BitVec 2) (_d : Byte) (s : State) : Out := .next s

/-- WR_UNUSED (R177), indices 0x10 to 0x1F: ignored. -/
def wrUnused101F (_sub : BitVec 4) (_d : Byte) (s : State) : Out := .next s

/-- WR_FF00 (R178): the trigger if ARMED; the data byte is ignored. -/
def wrFf00 (s : State) : Out := if armed s.reg.command then trigger s else .next s

/-- `WR_<i>(D)` by index (30_encoding.md R85). -/
def writeIndex (i : BitVec 5) (d : Byte) (s : State) : Out :=
  match i.toNat with
  | 0 => wrStatus d s
  | 1 => wrCommand d s
  | 2 => wrHostLo d s
  | 3 => wrHostHi d s
  | 4 => wrPerLo d s
  | 5 => wrPerHi d s
  | 6 => wrBank d s
  | 7 => wrLenLo d s
  | 8 => wrLenHi d s
  | 9 => wrImr d s
  | 10 => wrAcr d s
  | 11 => wrUnused0B d s
  | n => if n < 16 then wrUnused0C0F (i.setWidth 2) d s else wrUnused101F (i.setWidth 4) d s

/-- REU.write(C, A, D) (R179): handled if it went to the register file or fired the trigger. -/
def reuWrite (c : Ctrl) (a : Addr) (d : Byte) (s : State) : OutV Bool :=
  if c.io2 then andThen (writeIndex (indexOf a) d s) fun t => .next (true, t)
  else if a = triggerAddr then andThen (wrFf00 s) fun t => .next (armed s.reg.command, t)
  else .next (false, s)

/-- A register write by itself: nothing is returned. -/
def returnNothing (o : Out) : Out := andThen o fun t => .next (t.setRet .none)

/-- R164; the data byte is sampled by DATA_READ (42_dispatch.md R143). -/
def execWrStatus (_mirror : BitVec 11) (s : State) : Out := returnNothing (wrStatus (dataRead s) s)

/-- R175; the data byte is sampled by DATA_READ (42_dispatch.md R143). -/
def execWrCommand (_mirror : BitVec 11) (s : State) : Out := returnNothing (wrCommand (dataRead s) s)

/-- R166; the data byte is sampled by DATA_READ (42_dispatch.md R143). -/
def execWrHostLo (_mirror : BitVec 11) (s : State) : Out := returnNothing (wrHostLo (dataRead s) s)

/-- R167; the data byte is sampled by DATA_READ (42_dispatch.md R143). -/
def execWrHostHi (_mirror : BitVec 11) (s : State) : Out := returnNothing (wrHostHi (dataRead s) s)

/-- R168; the data byte is sampled by DATA_READ (42_dispatch.md R143). -/
def execWrPerLo (_mirror : BitVec 11) (s : State) : Out := returnNothing (wrPerLo (dataRead s) s)

/-- R169; the data byte is sampled by DATA_READ (42_dispatch.md R143). -/
def execWrPerHi (_mirror : BitVec 11) (s : State) : Out := returnNothing (wrPerHi (dataRead s) s)

/-- R170; the data byte is sampled by DATA_READ (42_dispatch.md R143). -/
def execWrBank (_mirror : BitVec 11) (s : State) : Out := returnNothing (wrBank (dataRead s) s)

/-- R171; the data byte is sampled by DATA_READ (42_dispatch.md R143). -/
def execWrLenLo (_mirror : BitVec 11) (s : State) : Out := returnNothing (wrLenLo (dataRead s) s)

/-- R172; the data byte is sampled by DATA_READ (42_dispatch.md R143). -/
def execWrLenHi (_mirror : BitVec 11) (s : State) : Out := returnNothing (wrLenHi (dataRead s) s)

/-- R173; the data byte is sampled by DATA_READ (42_dispatch.md R143). -/
def execWrImr (_mirror : BitVec 11) (s : State) : Out := returnNothing (wrImr (dataRead s) s)

/-- R174; the data byte is sampled by DATA_READ (42_dispatch.md R143). -/
def execWrAcr (_mirror : BitVec 11) (s : State) : Out := returnNothing (wrAcr (dataRead s) s)

/-- R177. -/
def execWrUnused0B (_mirror : BitVec 11) (s : State) : Out := returnNothing (wrUnused0B (dataRead s) s)

/-- R177. -/
def execWrUnused0C0F (_mirror : BitVec 11) (sub : BitVec 2) (s : State) : Out :=
  returnNothing (wrUnused0C0F sub (dataRead s) s)

/-- R177. -/
def execWrUnused101F (_mirror : BitVec 11) (sub : BitVec 4) (s : State) : Out :=
  returnNothing (wrUnused101F sub (dataRead s) s)

/-- R178. -/
def execWrFf00 (s : State) : Out := returnNothing (wrFf00 s)

end Sys2Proof.Machine
end

