-- ==== Sys2Proof/Machine/Tracker.lean ====
section
/-! DEFINITION. The phase clock tracker (41_phase_tracker.md R116 to R127): interval measurement, classification,
phase references, counter and waits. -/

namespace Sys2Proof.Machine

/-- `dev_P(c) = |c·F_P - F_MCU|`, exact (R116). -/
def deviation (c f fMcu : Nat) : Nat := ((c * f : Int) - fMcu).natAbs

/-- CLASSIFY_SAMPLE(c) (R118): the nearest profile within TOL permille; a tie goes to A. -/
def classifySample (cfg : Params) (c : Option Nat) : Profile :=
  match c with
  | none => .unclassified
  | some c =>
    let devA := deviation c Config.fA cfg.fMcu
    let devB := deviation c Config.fB cfg.fMcu
    let okA := decide (1000 * devA ≤ cfg.tol * cfg.fMcu)
    let okB := decide (1000 * devB ≤ cfg.tol * cfg.fMcu)
    if okA && (!okB || decide (devA * Config.fB ≤ devB * Config.fA)) then .a
    else if okB then .b
    else .unclassified

/-- MEASURE_INTERVAL (R117): an environment draw, `none` when it exceeds the time-out. The draws listed in the state come
first, then free ones (log entry 6). -/
def measureInterval (s : State) : Option Nat × State :=
  let limit : Option Nat → Option Nat := fun c => c.bind fun n => if n ≤ s.cfg.measureTimeout then some n else none
  match s.intervals with
  | c :: rest => (limit c, { s with intervals := rest })
  | [] => (limit (Config.freeInterval s.freeIdx), { s with freeIdx := s.freeIdx + 1 })

/-- How the run of agreeing samples continues with a new sample (R120). -/
def runLength (r last : Profile) (run : Nat) : Nat :=
  if r ≠ .unclassified ∧ r = last then run + 1 else if r ≠ .unclassified then 1 else 0

/-- The loop of CLASSIFY_CLOCK (R120), with the number of samples still allowed: the profile of the first sample that
completes a run of CLASSIFY_RUN, or none after the last sample. -/
def classifyLoop : Nat → Nat → Profile → State → Option Profile × State
  | 0, _, _, s => (none, s)
  | k + 1, run, last, s =>
    let m := measureInterval s
    let r := classifySample s.cfg m.1
    let run' := runLength r last run
    if s.cfg.classifyRun ≤ run' then (some r, m.2) else classifyLoop k run' r m.2

/-- The profile a classification attempt leaves: the one found, or Unclassified (R120, 10_state.md R20). -/
def profileOf : Option Profile → Profile
  | some p => p
  | none => .unclassified

/-- CLASSIFY_CLOCK (R120): `Ok(P)` or `Fail`, written to `profile`. -/
def classifyClock (s : State) : Option Profile × State :=
  let r := classifyLoop s.cfg.classifyMax 0 .unclassified s
  (r.1, { r.2 with profile := profileOf r.1 })

/-- The base offsets ARM_REFS(P) starts from: none while the operand P (R123) or the state item `profile` (10_state.md R20,
60_exceptions.md R225) is Unclassified, else those of P (log entry 24). -/
def armBase (p : Profile) (s : State) : Option Base := if s.profile = .unclassified then none else baseOf s.cfg p

/-- ARM_REFS(P, offset) (R123); UNARMED is checked before BAD_OFFSET (60_exceptions.md R218). -/
def armRefs (p : Profile) (offset : Int) (s : State) : Out :=
  match armBase p s with
  | none => .fault (.unarmed .armRefs s)
  | some b =>
    if offset < Config.offsetMin ∨ Config.offsetMax < offset then .fault (.badOffset offset s)
    else .next { s with ref := ⟨refTime b.dmaHigh offset, refTime b.high offset, refTime b.low offset, offset, true⟩ }

/-- One pass of WAIT_VALID_CLOCK's loop (R122): an attempt, and the led toggled if it failed. -/
def waitAttempt (s : State) : Option Profile × State :=
  let r := classifyClock s
  (r.1, { r.2 with led := if r.1.isSome then r.2.led else !r.2.led })

/-- R117. -/
def execMeasureInterval (s : State) : Out :=
  .next ((measureInterval s).2.setRet (.interval (measureInterval s).1))

/-- R118. -/
def execClassifySample (c : Option Nat) (s : State) : Out := .next (s.setRet (.profile (classifySample s.cfg c)))

/-- R120. Also issued while the interrupt is enabled it runs, since R120 names no fault (log entry 13). -/
def execClassifyClock (s : State) : Out := .next ((classifyClock s).2.setRet (.classified (classifyClock s).1))

/-- R122: one pass of the loop; while no clock is classified the operation has not returned and stays the next one that
runs (log entry 7). Also issued while the interrupt is enabled it runs, since R122 names no fault (log entry 13). -/
def execWaitValidClock (s : State) : Out :=
  let r := waitAttempt s
  .next { r.2 with
    ret := .classified r.1
    env := if r.1.isSome then r.2.env else .op (encode .waitValidClock) :: r.2.env }

/-- R123, issued by external code: the references may be written only while the interrupt is masked (60_exceptions.md
R226, 41_phase_tracker.md R131; log entry 13). -/
def execArmRefs (p : Profile) (offset : Int) (s : State) : Out :=
  andThen (armRefs p offset s) fun t =>
    if s.cycIrqEnable then .fault (.unmaskedMutation .ref s) else .next (t.setRet .none)

/-- R125. -/
def execNow (s : State) : Out := .next (s.setRet (.time s.cnt))

/-- R126. -/
def execResync (s : State) : Out := .next ((resync s).setRet .none)

/-- R127: returns the counter cycles waited. In a cycle that carries a timing record the window of R128 is checked, the
call made where the timer stands (log entry 9). -/
def execWaitUntil (t : Time) (s : State) : Out :=
  let edge := s.cnt - BitVec.ofNat 32 (sinceEdge s)
  unlessFault (waitFault edge (t - edge) (sinceEdge s) s) (.next ((waitUntil t s).setRet (.time (waitTime t s))))

end Sys2Proof.Machine
end

