-- ==== Sys2Proof/Machine/Interface.lean ====
section
/-! DEFINITION. The bus handler dispatch core (42_dispatch.md R132 to R145): handler pairs, the per-cycle algorithm, the
terminal and composite cycles, installing a handler, enabling and disabling the interface. -/

namespace Sys2Proof.Machine

/-- `h.read(C, A)` (R136). A cartridge variant is an abstract total function of its own state and the sample, and may set
its own output lines (10_state.md R33; log entry 10). -/
def pairRead (h : Pair) (c : Ctrl) (a : Addr) (s : State) : Option Byte × State :=
  match h with
  | .reu => reuRead c a s
  | .cart n =>
    ((Config.cartRead n s.cart c a).data,
      { s with cart := (Config.cartRead n s.cart c a).cart, cartLines := (Config.cartRead n s.cart c a).lines })

/-- `h.write(C, A, D)` (R137), with its `handled` result. -/
def pairWrite (h : Pair) (c : Ctrl) (a : Addr) (d : Byte) (s : State) : OutV Bool :=
  match h with
  | .reu => reuWrite c a d s
  | .cart n =>
    .next ((Config.cartWrite n s.cart c a d).handled,
      { s with cart := (Config.cartWrite n s.cart c a d).cart, cartLines := (Config.cartWrite n s.cart c a d).lines })

/-- A composite read: the primary first, REU if it declines (R145, D52). -/
def compositeRead (h : Pair) (c : Ctrl) (a : Addr) (s : State) : Option Byte × State :=
  match pairRead h c a s with
  | (some v, t) => (some v, t)
  | (none, t) => reuRead c a t

/-- A composite write: the primary first, REU if it does not report the cycle handled (R145, D52). -/
def compositeWrite (h : Pair) (c : Ctrl) (a : Addr) (d : Byte) (s : State) : OutV Bool :=
  andThen (pairWrite h c a d s) fun r => if r.1 then .next r else reuWrite c a d r.2

/-- Steps 1 to 3 of a host cycle (R138 to R140): pending cleared, counter resynchronized, wait for phase-high. -/
def awaitPhaseHigh (s : State) : Out :=
  waitRef .hostCycle (startEdge s) s.ref.high s.inp.latency (enterHandler s)

/-- Step 4 (R141): the sample, whose word is observed. -/
def observeSample (s : State) : State := { s with obs := { s.obs with word := some (currentWord s) } }

/-- The claimed read of step 5 (R142): the byte driven, and released after phase-low. -/
def answerRead (edge : Time) (v : Byte) (s : State) : Out :=
  andThen (dataDirOut (dataDrive v s)) fun t =>
    andThen (waitRef .hostCycle edge t.ref.low (secondCall t) t) fun u =>
      andThen (releaseData edge u) fun w => .next { w with obs := { w.obs with driven := some v } }

/-- Steps 1 to 6 (R138 to R143) for a read and a write handler. A cycle in which the core drives a bus that the host drives
has no meaning (40_bus_primitives.md R115). -/
def hostCycle (rd : Ctrl → Addr → State → Option Byte × State) (wr : Ctrl → Addr → Byte → State → OutV Bool)
    (s : State) : Out :=
  unlessFault (contention s)
    (andThen (awaitPhaseHigh s) fun s1 =>
      let t := observeSample s1
      if (ctrlRead t).rw then
        match rd (ctrlRead t) (addrRead t) t with
        | (some v, u) => andThen (answerRead (startEdge s) v u) fun w => .next (w.setRet .none)
        | (none, u) => .next (u.setRet .none)
      else
        andThen (wr (ctrlRead t) (addrRead t) (dataRead t) t) fun r =>
          .next { r.2 with ret := .none, obs := { r.2.obs with data := some (dataRead t) } })

/-- CYCLE_TERMINAL(h) (R144); the result of the write handler is ignored. -/
def execCycleTerminal (h : Pair) (s : State) : Out := hostCycle (pairRead h) (pairWrite h) s

/-- CYCLE_COMPOSITE(h) (R145). -/
def execCycleComposite (h : Pair) (s : State) : Out := hostCycle (compositeRead h) (compositeWrite h) s

/-- INSTALL_HANDLER(h) issued by external code (R133): refused while the interrupt is enabled by UNMASKED_MUTATION
(60_exceptions.md R226). The trigger and FINALIZE install from inside a handler. -/
def execInstallHandler (h : Handler) (s : State) : Out :=
  if s.cycIrqEnable then .fault (.unmaskedMutation .slot s) else .next { s with slot := h, ret := .none }

/-- DISABLE_INTERFACE (R135). The register file and `cycIrqPending` are not written. -/
def disableInterface (s : State) : State :=
  { busSafeIdle { s with cycIrqEnable := false, slot := .none, savedSlot := .none } with ifState := .idle }

/-- R135. -/
def execDisableInterface (s : State) : Out := .next ((disableInterface s).setRet .none)

/-- ENABLE_INTERFACE before its wait for a clock (R134, R132): DISABLE_INTERFACE if Active, then the interrupt
masked. -/
def enableBegin (s : State) : State :=
  match s.ifState with
  | .active => { disableInterface s with cycIrqEnable := false }
  | .idle => { s with cycIrqEnable := false }

/-- ENABLE_INTERFACE after the references are armed (R134): REU_MODE_ENTRY if the mode uses the REU, the variant's own
state (log entry 10), the handler installed, the pending flag cleared last, the interrupt enabled. -/
def enableFinish (mode : Handler) (s : State) : State :=
  { enterVariant mode (if usesReu mode then reuModeEntry s else s) with
    slot := mode
    savedSlot := .none
    cycIrqPending := false
    cycIrqEnable := true
    ifState := .active }

/-- ENABLE_INTERFACE(mode, offset) for an admitted mode: one pass of WAIT_VALID_CLOCK; on success the rest, else the
operation has not returned and stays the next one that runs (log entry 7). -/
def enableMode (mode : Handler) (offset : Int) (s : State) : Out :=
  let r := waitAttempt (enableBegin s)
  match r.1 with
  | some p => andThen (armRefs p offset r.2) fun t => .next ((enableFinish mode t).setRet .none)
  | none => .next { r.2 with ret := .none, env := .op (encode (.enableInterface mode offset)) :: r.2.env }

/-- ENABLE_INTERFACE(mode, offset) (R134): a mode `none` or `dma(_)` is refused (60_exceptions.md R228). -/
def execEnableInterface (mode : Handler) (offset : Int) (s : State) : Out :=
  match mode with
  | .terminal h => enableMode (.terminal h) offset s
  | .composite h => enableMode (.composite h) offset s
  | .none => .refused (.badMode .none)
  | .dma c => .refused (.badMode (.dma c))

end Sys2Proof.Machine
end

