-- ==== Sys2Proof/Machine/Transfer.lean ====
section
/-! DEFINITION. The start of a transfer (30_encoding.md R89, 43_reu_registers.md R176) and the DMA sequencer
(44_dma_sequencer.md R190 to R204): the four CMD operations, TRIGGER, the six sequencer states, FINALIZE. -/

namespace Sys2Proof.Machine

/-- CMD_STASH: a trigger whose COMMAND byte has TYPE 00. The other bits of the byte take no part in it (R175; log entry
12). -/
def execCmdStash (_res6 _auto _ff00 : Bool) (_res32 : BitVec 2) (s : State) : Out :=
  andThen (startTransfer stashCode s) fun t => .next (t.setRet .none)

/-- CMD_FETCH: TYPE 01. -/
def execCmdFetch (_res6 _auto _ff00 : Bool) (_res32 : BitVec 2) (s : State) : Out :=
  andThen (startTransfer fetchCode s) fun t => .next (t.setRet .none)

/-- CMD_SWAP: TYPE 10. -/
def execCmdSwap (_res6 _auto _ff00 : Bool) (_res32 : BitVec 2) (s : State) : Out :=
  andThen (startTransfer swap1Code s) fun t => .next (t.setRet .none)

/-- CMD_VERIFY: TYPE 11. -/
def execCmdVerify (_res6 _auto _ff00 : Bool) (_res32 : BitVec 2) (s : State) : Out :=
  andThen (startTransfer verifyCode s) fun t => .next (t.setRet .none)

/-- TRIGGER (R176). -/
def execTrigger (s : State) : Out := andThen (trigger s) fun t => .next (t.setRet .none)

/-- FINALIZE(st) (R204). -/
def execFinalize (eob ve : Bool) (s : State) : Out := .next ((finalize eob ve s).setRet .none)

/-- The frame of every DMA cycle (R190): pending cleared, counter resynchronized, wait for DMA-phase-high, then the
state's own cycle, which is given the start edge. -/
def dmaCycle (body : Time → State → Out) (s : State) : Out :=
  andThen (waitRef .dmaCycle (startEdge s) s.ref.dmaHigh s.inp.latency (enterHandler s)) fun t =>
    andThen (body (startEdge s) t) fun u => .next (u.setRet .none)

/-- STASH_CYCLE (R195). -/
def stashCycle (edge : Time) (s : State) : Out :=
  andThen (hostBusRead edge s.reg.hostAddr s) fun r =>
    .next (stepTail stashCode (advancePer (perWrite r.1 (advanceHost r.2))))

/-- FETCH_CYCLE (R196). -/
def fetchCycle (edge : Time) (s : State) : Out :=
  andThen (hostBusWrite edge s.reg.hostAddr (perRead s) s) fun t =>
    .next (stepTail fetchCode (advancePer (advanceHost t)))

/-- SWAP1_CYCLE (R197). -/
def swap1Cycle (edge : Time) (s : State) : Out :=
  andThen (hostBusRead edge s.reg.hostAddr s) fun r =>
    .next { r.2 with swapLatch := r.1, slot := .dma swap2Code }

/-- SWAP2_CYCLE (R198). -/
def swap2Cycle (edge : Time) (s : State) : Out :=
  andThen (hostBusWrite edge s.reg.hostAddr (perRead s) s) fun t =>
    .next (stepTail swap1Code (advancePer (advanceHost (perWrite t.swapLatch t))))

/-- VERIFY_CYCLE (R199). -/
def verifyCycle (edge : Time) (s : State) : Out :=
  andThen (hostBusRead edge s.reg.hostAddr s) fun r =>
    let t := advancePer (advanceHost r.2)
    if r.1 = perRead r.2 then .next (stepTail verifyCode t)
    else if lastByte t.reg.length then .next (finalize true true t)
    else .next { decLength t with slot := .dma verifyErrCode }

/-- VERIFY_ERR_CYCLE (R200). -/
def verifyErrCycle (edge : Time) (s : State) : Out :=
  andThen (hostBusRead edge s.reg.hostAddr s) fun r =>
    let t := advancePer (advanceHost r.2)
    if lastByte t.reg.length then .next (finalize (decide (r.1 = perRead r.2)) true t)
    else .next (finalize false true (decLength t))

/-- A reserved state's cycle: refused where R190 matches the state (60_exceptions.md R228). -/
def reservedCycle (code : BitVec 3) (_edge : Time) (_s : State) : Out := .refused (.reservedState code)

/-- R190 with R195. -/
def execDmaStash (s : State) : Out := dmaCycle stashCycle s

/-- R190 with R196. -/
def execDmaFetch (s : State) : Out := dmaCycle fetchCycle s

/-- R190 with R197. -/
def execDmaSwap1 (s : State) : Out := dmaCycle swap1Cycle s

/-- R190 with R198. -/
def execDmaSwap2 (s : State) : Out := dmaCycle swap2Cycle s

/-- R190 with R199. -/
def execDmaVerify (s : State) : Out := dmaCycle verifyCycle s

/-- R190 with R200. -/
def execDmaVerifyErr (s : State) : Out := dmaCycle verifyErrCycle s

end Sys2Proof.Machine
end

