-- ==== Sys2Proof/Machine/Dispatch.lean ====
section
/-! DEFINITION. One arm per constructor of Instr: the meaning of each operation. -/

namespace Sys2Proof.Machine

open Sys2Proof

def exec (i : Instr) (s : State) : Host.Outcome State Fault Refusal :=
  match i with
  | .rdStatus mirror => Sys2Proof.Machine.execRdStatus mirror s
  | .rdCommand mirror => Sys2Proof.Machine.execRdCommand mirror s
  | .rdHostLo mirror => Sys2Proof.Machine.execRdHostLo mirror s
  | .rdHostHi mirror => Sys2Proof.Machine.execRdHostHi mirror s
  | .rdPerLo mirror => Sys2Proof.Machine.execRdPerLo mirror s
  | .rdPerHi mirror => Sys2Proof.Machine.execRdPerHi mirror s
  | .rdBank mirror => Sys2Proof.Machine.execRdBank mirror s
  | .rdLenLo mirror => Sys2Proof.Machine.execRdLenLo mirror s
  | .rdLenHi mirror => Sys2Proof.Machine.execRdLenHi mirror s
  | .rdImr mirror => Sys2Proof.Machine.execRdImr mirror s
  | .rdAcr mirror => Sys2Proof.Machine.execRdAcr mirror s
  | .rdUnused0B mirror => Sys2Proof.Machine.execRdUnused0B mirror s
  | .rdUnused0C0F mirror sub => Sys2Proof.Machine.execRdUnused0C0F mirror sub s
  | .rdUnused101F mirror sub => Sys2Proof.Machine.execRdUnused101F mirror sub s
  | .wrStatus mirror => Sys2Proof.Machine.execWrStatus mirror s
  | .wrCommand mirror => Sys2Proof.Machine.execWrCommand mirror s
  | .wrHostLo mirror => Sys2Proof.Machine.execWrHostLo mirror s
  | .wrHostHi mirror => Sys2Proof.Machine.execWrHostHi mirror s
  | .wrPerLo mirror => Sys2Proof.Machine.execWrPerLo mirror s
  | .wrPerHi mirror => Sys2Proof.Machine.execWrPerHi mirror s
  | .wrBank mirror => Sys2Proof.Machine.execWrBank mirror s
  | .wrLenLo mirror => Sys2Proof.Machine.execWrLenLo mirror s
  | .wrLenHi mirror => Sys2Proof.Machine.execWrLenHi mirror s
  | .wrImr mirror => Sys2Proof.Machine.execWrImr mirror s
  | .wrAcr mirror => Sys2Proof.Machine.execWrAcr mirror s
  | .wrUnused0B mirror => Sys2Proof.Machine.execWrUnused0B mirror s
  | .wrUnused0C0F mirror sub => Sys2Proof.Machine.execWrUnused0C0F mirror sub s
  | .wrUnused101F mirror sub => Sys2Proof.Machine.execWrUnused101F mirror sub s
  | .wrFf00 => Sys2Proof.Machine.execWrFf00 s
  | .cmdStash res6 auto ff00 res32 => Sys2Proof.Machine.execCmdStash res6 auto ff00 res32 s
  | .cmdFetch res6 auto ff00 res32 => Sys2Proof.Machine.execCmdFetch res6 auto ff00 res32 s
  | .cmdSwap res6 auto ff00 res32 => Sys2Proof.Machine.execCmdSwap res6 auto ff00 res32 s
  | .cmdVerify res6 auto ff00 res32 => Sys2Proof.Machine.execCmdVerify res6 auto ff00 res32 s
  | .dmaStash => Sys2Proof.Machine.execDmaStash s
  | .dmaFetch => Sys2Proof.Machine.execDmaFetch s
  | .dmaSwap1 => Sys2Proof.Machine.execDmaSwap1 s
  | .dmaSwap2 => Sys2Proof.Machine.execDmaSwap2 s
  | .dmaVerify => Sys2Proof.Machine.execDmaVerify s
  | .dmaVerifyErr => Sys2Proof.Machine.execDmaVerifyErr s
  | .addrRead => Sys2Proof.Machine.execAddrRead s
  | .addrDrive a => Sys2Proof.Machine.execAddrDrive a s
  | .addrDirIn => Sys2Proof.Machine.execAddrDirIn s
  | .addrDirOut => Sys2Proof.Machine.execAddrDirOut s
  | .dataRead => Sys2Proof.Machine.execDataRead s
  | .dataDrive v => Sys2Proof.Machine.execDataDrive v s
  | .dataDirIn => Sys2Proof.Machine.execDataDirIn s
  | .dataDirOut => Sys2Proof.Machine.execDataDirOut s
  | .ctrlRead => Sys2Proof.Machine.execCtrlRead s
  | .busSample => Sys2Proof.Machine.execBusSample s
  | .rwDrive b => Sys2Proof.Machine.execRwDrive b s
  | .rwRelease => Sys2Proof.Machine.execRwRelease s
  | .busreqSet b => Sys2Proof.Machine.execBusreqSet b s
  | .irqSet b => Sys2Proof.Machine.execIrqSet b s
  | .cartLinesSet v => Sys2Proof.Machine.execCartLinesSet v s
  | .busSafeIdle => Sys2Proof.Machine.execBusSafeIdle s
  | .measureInterval => Sys2Proof.Machine.execMeasureInterval s
  | .classifySample c => Sys2Proof.Machine.execClassifySample c s
  | .classifyClock => Sys2Proof.Machine.execClassifyClock s
  | .waitValidClock => Sys2Proof.Machine.execWaitValidClock s
  | .armRefs p offset => Sys2Proof.Machine.execArmRefs p offset s
  | .now => Sys2Proof.Machine.execNow s
  | .resync => Sys2Proof.Machine.execResync s
  | .waitUntil t => Sys2Proof.Machine.execWaitUntil t s
  | .installHandler h => Sys2Proof.Machine.execInstallHandler h s
  | .enableInterface mode offset => Sys2Proof.Machine.execEnableInterface mode offset s
  | .disableInterface => Sys2Proof.Machine.execDisableInterface s
  | .cycleTerminal h => Sys2Proof.Machine.execCycleTerminal h s
  | .cycleComposite h => Sys2Proof.Machine.execCycleComposite h s
  | .trigger => Sys2Proof.Machine.execTrigger s
  | .finalize eob ve => Sys2Proof.Machine.execFinalize eob ve s

end Sys2Proof.Machine
end

