-- ==== Sys2Proof/Machine/Fetch.lean ====
section
/-! DEFINITION. What runs next: the environment's next event, the word the handler slot selects, the writes of external
code, and the placing of a word so that the next step runs it (log entry 14). -/

namespace Sys2Proof.Machine

/-- The next event and the state without it. With no event listed, a host cycle with free inputs arrives: every host
cycle eventually arrives (70_reset_and_hazards.md R265; log entry 5). -/
def nextEvent (s : State) : Event × State :=
  match s.env with
  | e :: rest => (e, { s with env := rest })
  | [] => (.cycle { Config.freeCycle s.freeIdx with timing := none }, { s with freeIdx := s.freeIdx + 1 })

/-- The operation the cycle interrupt runs for a slot (42_dispatch.md R146): none for an empty slot. -/
def handlerWord : Handler → Option OpWord
  | .none => none
  | .terminal h => some (.op8 0x43 (.pair h))
  | .composite h => some (.op8 0x44 (.pair h))
  | .dma code => some (.dmaState code)

/-- A host clock cycle begins (41_phase_tracker.md R129): time passes to the start edge, which `cap` latches, and on to
the handler's RESYNC; the compare-match sets the pending flag; the cycle's bus inputs are present (10_state.md R34). -/
def latchCycle (c : HostCycle) (s : State) : State :=
  let atEdge := elapse c.edge s
  { elapse c.latency { atEdge with cap := atEdge.timer } with
    cycIrqPending := true
    inp := ⟨c.addr, c.ctrl, c.data, c.latency, c.timing⟩
    obs := noObs }

/-- The state item a write by external code writes (60_exceptions.md R226). -/
def itemOf : ExtWrite → Item
  | .status _ => .reg
  | .reg _ _ => .reg
  | .shadow _ _ => .shadow
  | .mem _ _ => .mem
  | .slot _ => .slot
  | .savedSlot _ => .savedSlot
  | .ref _ _ => .ref

/-- A write by external code: only while the cycle interrupt is masked (10_state.md R55, 60_exceptions.md R226). The
references, which it may write too (R226, R235), are written by ARM_REFS alone (10_state.md R21; log entry 29). -/
def extWrite (x : ExtWrite) (s : State) : Out :=
  if s.cycIrqEnable then .fault (.unmaskedMutation (itemOf x) s)
  else match x with
    | .status v => .next { s with reg := { s.reg with status := v } }
    | .reg r v => .next { s with reg := s.reg.put r v }
    | .shadow r v => .next { s with shadow := s.shadow.put r v }
    | .mem p v =>
      if p < s.cfg.reuSize.bytes then .next { s with mem := memWrite s.mem p v } else .fault (.noSuchByte p s)
    | .slot h => .next { s with slot := h }
    | .savedSlot (.dma code) => .refused (.savedDma code)
    | .savedSlot .none => .next { s with savedSlot := .none }
    | .savedSlot (.terminal h) => .next { s with savedSlot := .terminal h }
    | .savedSlot (.composite h) => .next { s with savedSlot := .composite h }
    | .ref p offset => armRefs p offset s

/-- The collaborator's mark operation clears the flag of a region (10_state.md R56). -/
def markRegion (r : Region) (s : State) : State :=
  match r with
  | .peripheral => { s with regionModified := false }
  | .cart i => { s with cart := { s.cart with modified := s.cart.modified.set i false } }

/-- The mark as an event. The collaborator is external code, which changes state only while the cycle interrupt is masked
(20_memory.md R74, R77, D58; log entry 25). -/
def extMark (r : Region) (s : State) : Out :=
  if s.cycIrqEnable then .fault (.unmaskedMutation .regionModified s) else .next (markRegion r s)

/-- The host cycle whose sample forms the word `w` (30_encoding.md R83), with data byte 0. -/
def cycleOf (w : CycleWord) : HostCycle where
  addr := w.extractLsb' 0 16
  ctrl := { Ctrl.idle with rw := w.getLsbD 16, io2 := w.getLsbD 17 }
  data := 0
  edge := 0
  latency := 0
  timing := none

/-- The interface enabled with a given slot, the clock classified, references armed, all buses released. -/
def withSlot (h : Handler) (s : State) : State :=
  { s with
    ifState := .active
    cycIrqEnable := true
    slot := h
    profile := if s.profile = .unclassified then .a else s.profile
    ref := { s.ref with armed := true }
    addrDir := .input
    dataDir := .input
    rwDir := .input }

/-- A steady profile-A clock for one classification attempt (41_phase_tracker.md R116). -/
def steadyClock (cfg : Params) : List (Option Nat) := List.replicate cfg.classifyMax (some (cfg.fMcu / Config.fA))

/-- Places an encoded operation so that the next step runs it: a cycle word as a host cycle of `terminal(REU)`; a COMMAND
byte in the register it is read from, and the trigger's operation on it; a sequencer code in the slot of a machine that
owns the bus; a cycle handler's number as the slot it serves; ARM_REFS with its profile as the one classified;
ENABLE_INTERFACE with the host clock it waits for; another number as the operation issued next. -/
def placeWord (w : OpWord) (s : State) : State :=
  match w with
  | .hostCyc cw => { withSlot (.terminal .reu) s with env := .cycle (cycleOf cw) :: s.env }
  | .cmdType b => { s with reg := { s.reg with command := b }, env := .op w :: s.env }
  | .dmaState code =>
    { withSlot (.dma code) s with
      savedSlot := .terminal .reu
      busReq := true
      env := .cycle (cycleOf 0x10000) :: s.env }
  | .op8 n arg =>
    match n.toNat, arg with
    | 0x24, .arm p _ => { s with profile := p, env := .op w :: s.env }
    | 0x41, _ => { s with intervals := steadyClock s.cfg, env := .op w :: s.env }
    | 0x43, .pair h => { withSlot (.terminal h) s with env := .cycle (cycleOf 0x10000) :: s.env }
    | 0x44, .pair h => { withSlot (.composite h) s with env := .cycle (cycleOf 0x10000) :: s.env }
    | _, _ => { s with env := .op w :: s.env }

end Sys2Proof.Machine
end

