-- ==== Sys2Proof/Machine/Clock.lean ====
section
/-! DEFINITION. Running the next event: an encoded operation, or a host clock cycle with the cycle interrupt
(42_dispatch.md R146, 41_phase_tracker.md R129) and the timed checks of 60_exceptions.md R219. -/

namespace Sys2Proof.Machine

/-- Runs an encoded operation. A declined cycle word and a COMMAND byte without EXEC are no operation and change nothing
(30_encoding.md R88, R89); the forms R91 and R94 do not admit are refused (60_exceptions.md R228), a reserved sequencer code
after the wait of its cycle (44_dma_sequencer.md R190; log entry 26). An issued TRIGGER, CMD, FINALIZE, register or DMA operation is no write of external
code and runs while the interrupt is enabled (log entry 13). -/
def runWord (w : OpWord) (s : State) : Out :=
  match decode w with
  | .ok i => exec i s
  | .error (.declined _) => .next (s.setRet .none)
  | .error (.noExec _) => .next (s.setRet .none)
  | .error (.reservedState code) => dmaCycle (reservedCycle code) s
  | .error (.unassigned n) => .refused (.unassignedNumber n)
  | .error (.wrongArgument n) => .refused (.wrongArgument n)

/-- CONTENTION at the start edge of a cycle: a bus driven from both sides (40_bus_primitives.md R115), or, in a timed cycle,
the data bus still driven (70_reset_and_hazards.md R253), which is TIMING too (60_exceptions.md R219(d); log entry 9). -/
def edgeContention (s : State) : Option Fault :=
  match contention s with
  | some f => some f
  | none =>
    if s.inp.timing.isSome ∧ s.dataDir = .output then
      some (.stillDriven (startEdge s) (startEdge s) (currentWord s) s)
    else none

/-- R219(b) in a timed cycle of an enabled interrupt: a compare-match arrives while the pending flag is still set. `pending`
is the flag at this cycle's match; the next match finds it set if the handler starts, and clears it, only a period after
the start edge. The target recorded is the start edge of the match that is missed (log entry 9). -/
def missedCycle (pending : Bool) (s : State) : Option Fault :=
  match s.inp.timing with
  | none => none
  | some t =>
    if pending then some (.timing .missedCycle (startEdge s) (startEdge s) s)
    else if t.period ≤ s.inp.latency then
      some (.timing .missedCycle (startEdge s) (startEdge s + BitVec.ofNat 32 t.period) s)
    else none

/-- R219(c): a timed handler must be done before the sample point of the next cycle (70_reset_and_hazards.md R254). `s` is
the state the cycle began in, `u` the state the handler left. The target recorded is that sample point (log entry 9). -/
def overrun (s u : State) : Option Fault :=
  match s.inp.timing with
  | none => none
  | some t =>
    if t.period + s.ref.high.toNat ≤ t.done then
      some (.timing .overrun (startEdge s) (startEdge s + BitVec.ofNat 32 t.period + s.ref.high) u)
    else none

/-- The cycle interrupt taken (R146): exactly one handler runs to completion, chosen by the slot. -/
def takeInterrupt (s : State) : Out :=
  match handlerWord s.slot with
  | none => .fault (.noHandler s)
  | some w => andThen (runWord w s) fun u => unlessFault (overrun s u) (.next u)

/-- One host clock cycle (R129, R146): the compare-match sets the pending flag; if the interrupt is enabled, it is taken. -/
def hostClock (c : HostCycle) (s : State) : Out :=
  let t := latchCycle c s
  unlessFault (edgeContention t)
    (if t.cycIrqEnable then unlessFault (missedCycle s.cycIrqPending t) (takeInterrupt t) else .next t)

/-- Runs one event. -/
def runEvent (e : Event) (s : State) : Out :=
  match e with
  | .cycle c => hostClock c s
  | .op w => runWord w s
  | .extWrite x => extWrite x s
  | .mark r => extMark r s

/-- Runs the next event, unless a bus is driven from both sides: a cycle with contention has no meaning at any point of it
(40_bus_primitives.md R115), so nothing runs on from the operation that left it (log entry 27). -/
def runNext (s : State) : Out := unlessFault (contention s) (runEvent (nextEvent s).1 (nextEvent s).2)

end Sys2Proof.Machine
end

