-- ==== Sys2Proof/Machine/Step.lean ====
section
/-! DEFINITION. One step: the next event runs (00_scope.md R11). -/

namespace Sys2Proof.Machine

/-- One step of the machine: one host clock cycle, or one action of external code between two handler runs
(60_exceptions.md R232). -/
def step (s : State) : Host.Outcome State Fault Refusal := runNext s

/-- `s` with a table word placed where the next step takes its operation from (log entry 14). -/
def State.withFetchWord (s : State) (nbits w : Nat) : State :=
  match tableWord nbits w with
  | some ow => placeWord ow s
  | none => s

end Sys2Proof.Machine
end

