-- ==== Sys2Proof/Safety.lean ====
section
/-! DEFINITION. What counts as a safe run: the events of a conforming run, the invariants of the machine, and the
conditions under which the operations execute normally, in the terms the statements use. -/

namespace Sys2Proof.Machine

/-- The events of a conforming run (60_exceptions.md R235): host cycles, ENABLE_INTERFACE and DISABLE_INTERFACE, and what
external code may write. -/
def conforming : Event → Bool
  | .cycle _ => true
  | .extWrite _ => true
  | .mark _ => true
  | .op w =>
    match decode w with
    | .ok (.enableInterface _ _) => true
    | .ok .disableInterface => true
    | _ => false

/-- A host cycle without a timing record: the untimed model (60_exceptions.md R220). -/
def untimed : Event → Bool
  | .cycle c => c.timing.isNone
  | .extWrite _ => true
  | .mark _ => true
  | .op _ => true

/-- Peripheral memory is canonical and lies below REU_SIZE (20_memory.md R61); timer and capture fit TIMER_BITS
(10_state.md R23); savedSlot never holds a `dma(_)` value (R28); the calibration offset lies in [-30, 30] (R21). -/
def StateInvariant (s : State) : Prop :=
  s.mem.wf ∧ (∀ c ∈ s.mem, c.1 < s.cfg.reuSize.bytes) ∧ s.timer < 2 ^ s.cfg.timerBits ∧
    s.cap < 2 ^ s.cfg.timerBits ∧ slotIsDma s.savedSlot = false ∧ -30 ≤ s.ref.fine ∧ s.ref.fine ≤ 30

/-- The bus is untouched: all buses released, all control outputs deasserted (10_state.md R25, 70_reset_and_hazards.md
R243). -/
def BusUntouched (s : State) : Prop :=
  s.addrDir = .input ∧ s.dataDir = .input ∧ s.rwDir = .input ∧ s.busReq = false ∧ s.irqOut = false ∧
    s.cartLines = .deasserted

/-- A slot that holds a handler pair or an admitted sequencer state. -/
def Installed (h : Handler) : Prop := h ≠ .none ∧ h ≠ .dma 4 ∧ h ≠ .dma 5

/-- The bus discipline between two steps. Idle: interrupt masked, bus untouched. Active: interrupt enabled, a handler
installed, the clock classified and the references armed, the data bus released; the core owns the bus exactly in a
DMA transfer, in which the handler to restore is saved; else the address bus and R/W are released and nothing is saved. -/
def BusInvariant (s : State) : Prop :=
  match s.ifState with
  | .idle => s.cycIrqEnable = false ∧ BusUntouched s
  | .active =>
    s.cycIrqEnable = true ∧ Installed s.slot ∧ s.profile ≠ .unclassified ∧ s.ref.armed = true ∧ s.dataDir = .input ∧
      s.busReq = slotIsDma s.slot ∧
      (slotIsDma s.slot = true → s.savedSlot.isMode = true) ∧
      (slotIsDma s.slot = false → s.savedSlot = .none ∧ s.addrDir = .input ∧ s.rwDir = .input)

/-- The core, without the bus request, drives a bus that the host drives in a cycle whose R/W line is `rw`
(40_bus_primitives.md R115). -/
def DrivenAgainst (s : State) (rw : Bool) : BusName → Prop
  | .address => s.busReq = false ∧ s.addrDir = .output
  | .rw => s.busReq = false ∧ s.rwDir = .output
  | .data => s.busReq = false ∧ s.dataDir = .output ∧ rw = false

/-- A DMA cycle executes normally: the core owns the bus, the references are armed and the clock is classified
(44_dma_sequencer.md R190, 41_phase_tracker.md R121), in a cycle without a timing record (60_exceptions.md R220). -/
def DmaReady (s : State) : Prop := s.busReq = true ∧ refsReady s = true ∧ s.inp.timing = none

/-- A host cycle executes normally: the references are armed, the clock is classified, R/W is the host's, no bus is driven from both sides
(40_bus_primitives.md R115), no transfer is running, and the cycle has no timing record (60_exceptions.md R220). -/
def HostCycleReady (s : State) : Prop :=
  refsReady s = true ∧ s.rwDir = .input ∧ slotIsDma s.slot = false ∧ contended s = none ∧ s.inp.timing = none

/-- A wait on the instant `r` of a timed cycle keeps its window, called `call` counter cycles after the start edge: the
target within the period, the call at most a nominal period after the target (41_phase_tracker.md R128, R116). -/
def InWindow (s : State) (tm : CycleTiming) (r : Time) (call : Nat) : Prop :=
  r.toNat < tm.period ∧ ∀ f, nominal s.profile = some f → (call - r.toNat) * f ≤ s.cfg.fMcu

/-- The reference of a handler's first wait: DMA-phase-high in a transfer (44_dma_sequencer.md R190), else phase-high
(42_dispatch.md R140). -/
def firstRef (s : State) : Time := if slotIsDma s.slot then s.ref.dmaHigh else s.ref.high

/-- A handler that began in `s` and left `t` made a second wait, on the reference `r`: phase-low after it drove the data bus,
phase-high in a DMA read (42_dispatch.md R142, 44_dma_sequencer.md R190). -/
def SecondRef (s t : State) (r : Time) : Prop :=
  t.obs.driven ≠ none ∧ r = s.ref.low ∨ slotIsDma s.slot = true ∧ t.obs.driven = none ∧ r = s.ref.high

/-- The waits and the release of the handler that began in `s` and left `t` were on time: the second wait, if one was made,
in its window, a driven data bus released before the next start edge (60_exceptions.md R219). -/
def SecondOnTime (s t : State) (tm : CycleTiming) : Prop :=
  (∀ r, SecondRef s t r → InWindow s tm r tm.second) ∧ (t.obs.driven ≠ none → tm.release < tm.period)

/-- The state in which a host cycle has sampled the bus (42_dispatch.md R138 to R141). -/
def sampled (s : State) : State :=
  observeSample (waitUntil (startEdge s + s.ref.high) (enterHandler s))

/-- What a host read that was answered with `v` leaves, where the handlers left `u`: the byte driven until phase-low and
released (42_dispatch.md R142). -/
def answered (edge : Time) (v : Byte) (u : State) : State :=
  { waitUntil (edge + u.ref.low) { u with dataLatch := v, dataDir := .output } with
    dataDir := .input
    ret := .none
    obs := { u.obs with driven := some v } }

/-- The class of one listed interval draw: one above the measurement's time-out is no interval (41_phase_tracker.md
R117, R118). -/
def sampleClass (cfg : Params) (c : Option Nat) : Profile :=
  classifySample cfg (c.bind fun n => if n ≤ cfg.measureTimeout then some n else none)

/-- The samples `xs` complete a stable run of the profile `p` with their `k`-th (41_phase_tracker.md R120). -/
def RunAt (cfg : Params) (xs : List (Option Nat)) (p : Profile) (k : Nat) : Prop :=
  p ≠ .unclassified ∧ cfg.classifyRun ≤ k ∧ k ≤ xs.length ∧
    ∀ j, k - cfg.classifyRun ≤ j → j < k → (xs[j]?.map (sampleClass cfg)) = some p

/-- `k` steps, the run ending with the first fault or refusal. -/
def steps : Nat → State → Out
  | 0, s => .next s
  | k + 1, s => andThen (step s) (steps k)

/-- `t` is what FINALIZE(st) leaves, where the last cycle had brought the register file to `f`
(44_dma_sequencer.md R203 to R206). -/
def Finalized (eob ve : Bool) (f : RegFile) (s t : State) : Prop :=
  let status := f.status ||| (if eob then 0x40 else 0) ||| (if ve then 0x20 else 0)
  let interrupt := f.imr.getLsbD 7 = true ∧ f.imr &&& status &&& 0x60 ≠ 0
  t.reg.command = (f.command &&& 0x7F) ||| 0x10 ∧
  t.reg.status = (if interrupt then status ||| 0x80 else status) ∧
  t.irqOut = (if interrupt then true else s.irqOut) ∧
  (if f.command.getLsbD 5 = true then
    t.reg.hostLo = s.shadow.hostLo ∧ t.reg.hostHi = s.shadow.hostHi ∧ t.reg.perLo = s.shadow.perLo ∧
      t.reg.perHi = s.shadow.perHi ∧ t.reg.bank = s.shadow.bank ∧ t.reg.lenLo = s.shadow.lenLo ∧
      t.reg.lenHi = s.shadow.lenHi
  else
    t.reg.hostLo = f.hostLo ∧ t.reg.hostHi = f.hostHi ∧ t.reg.perLo = f.perLo ∧
      t.reg.perHi = f.perHi ∧ t.reg.bank = f.bank ∧ t.reg.lenLo = f.lenLo ∧ t.reg.lenHi = f.lenHi) ∧
  t.reg.imr = f.imr ∧ t.reg.acr = f.acr ∧
  t.busReq = false ∧ t.addrDir = .input ∧ t.rwDir = .input ∧ t.dataDir = .input ∧
  t.slot = s.savedSlot ∧ t.savedSlot = .none

/-- The register file after ADV_H and ADV_P: each address advanced by one, modulo its space, unless it is fixed; no
other register changed (44_dma_sequencer.md R191, R192). -/
def Stepped (size : ReuSize) (f g : RegFile) : Prop :=
  g.hostHi ++ g.hostLo = (if f.acr.getLsbD 7 = true then f.hostHi ++ f.hostLo else f.hostHi ++ f.hostLo + 1#16) ∧
  (if f.acr.getLsbD 6 = true then g.bank = f.bank ∧ g.perHi = f.perHi ∧ g.perLo = f.perLo
    else (g.bank ++ g.perHi ++ g.perLo).toNat = ((f.bank ++ f.perHi ++ f.perLo).toNat % size.bytes + 1) % size.bytes) ∧
  g.status = f.status ∧ g.command = f.command ∧ g.lenLo = f.lenLo ∧ g.lenHi = f.lenHi ∧ g.imr = f.imr ∧ g.acr = f.acr

/-- The transfer goes on in state `next`, with the addresses stepped to `g` and the length one less; the core keeps the
bus, and the data bus has the direction `dir` (44_dma_sequencer.md R193, R194). -/
def Continues (next : BitVec 3) (dir : Dir) (g : RegFile) (s t : State) : Prop :=
  let n := s.reg.lenHi ++ s.reg.lenLo - 1#16
  t.reg = { g with lenLo := n.extractLsb' 0 8, lenHi := n.extractLsb' 8 8 } ∧
  t.slot = .dma next ∧ t.savedSlot = s.savedSlot ∧ t.busReq = true ∧ t.irqOut = s.irqOut ∧
  t.addrDir = .output ∧ t.rwDir = .output ∧ t.dataDir = dir

/-- The last cycle of a transfer: the remaining length is 1 (44_dma_sequencer.md R193). -/
def LastCycle (s : State) : Prop := s.reg.lenHi ++ s.reg.lenLo = 1#16

/-- The peripheral address, masked to REU_SIZE (10_state.md R51). -/
def perOffset (s : State) : Nat := (s.reg.bank ++ s.reg.perHi ++ s.reg.perLo).toNat % s.cfg.reuSize.bytes

/-- The pins and the observation of a DMA read of the host address (20_memory.md R71). -/
def ReadPins (s t : State) : Prop :=
  t.addrLatch = s.reg.hostHi ++ s.reg.hostLo ∧ t.rwLatch = true ∧ t.dataLatch = s.dataLatch ∧
  t.obs = ⟨none, some (s.reg.hostHi ++ s.reg.hostLo), none, none⟩

/-- The pins and the output event of a DMA write of `v` to the host address (20_memory.md R71). -/
def WritePins (v : Byte) (s t : State) : Prop :=
  t.addrLatch = s.reg.hostHi ++ s.reg.hostLo ∧ t.rwLatch = false ∧ t.dataLatch = v ∧
  t.obs = ⟨none, some (s.reg.hostHi ++ s.reg.hostLo), some v, none⟩

/-- What no DMA cycle writes, the pending flag cleared, and nothing returned (44_dma_sequencer.md R190). -/
def DmaFrame (s t : State) : Prop :=
  t.cfg = s.cfg ∧ t.profile = s.profile ∧ t.ref = s.ref ∧ t.cap = s.cap ∧ t.led = s.led ∧ t.ifState = s.ifState ∧
  t.cycIrqEnable = s.cycIrqEnable ∧ t.cycIrqPending = false ∧ t.cartLines = s.cartLines ∧ t.shadow = s.shadow ∧
  t.cart = s.cart ∧ t.inp = s.inp ∧ t.env = s.env ∧ t.intervals = s.intervals ∧ t.freeIdx = s.freeIdx ∧ t.ret = .none

/-- What no host cycle writes, the pending flag cleared, and nothing returned (42_dispatch.md R144, R145). -/
def HostCycleFrame (s t : State) : Prop :=
  t.cfg = s.cfg ∧ t.profile = s.profile ∧ t.ref = s.ref ∧ t.cap = s.cap ∧ t.led = s.led ∧ t.ifState = s.ifState ∧
  t.cycIrqEnable = s.cycIrqEnable ∧ t.cycIrqPending = false ∧ t.addrDir = s.addrDir ∧ t.addrLatch = s.addrLatch ∧
  t.rwDir = s.rwDir ∧ t.rwLatch = s.rwLatch ∧ t.mem = s.mem ∧ t.swapLatch = s.swapLatch ∧
  t.regionModified = s.regionModified ∧ t.inp = s.inp ∧ t.env = s.env ∧ t.intervals = s.intervals ∧
  t.freeIdx = s.freeIdx ∧ t.ret = .none

end Sys2Proof.Machine
end

