-- ==== Sys2Proof/Certificates/Slice0/Obligations.lean ====
section
/-! DEFINITION. The statements for the provers, one Prop each. -/

open Sys2Proof Sys2Proof.Machine

/-! ### What a step runs -/

/-- 00_scope.md R11: an operation issued by itself is run as decoded (the model's `Event.op`, log entry 13), where no bus is
driven from both sides; with contention nothing runs (40_bus_primitives.md R115, log entry 27). The
collaborator's mark clears the flag of its region and nothing else while the interrupt is masked (10_state.md R56), and faults
UNMASKED_MUTATION while it is enabled (20_memory.md R74, R77, log entry 25). -/
def Obligations.StepRunsIssuedOperation : Prop :=
  (∀ (s : State) (w : OpWord) (i : Instr) (rest : List Event),
    contended s = none → s.env = .op w :: rest → decode w = .ok i → step s = exec i { s with env := rest }) ∧
  (∀ (s : State) (b : BusName), contended s = some b → step s = .fault (.contention b (currentWord s) s)) ∧
  (∀ (s : State) (rest : List Event), contended s = none → s.env = .mark .peripheral :: rest → s.cycIrqEnable = false →
    step s = .next { s with env := rest, regionModified := false }) ∧
  (∀ (s : State) (i : Nat) (rest : List Event), contended s = none → s.env = .mark (.cart i) :: rest →
    s.cycIrqEnable = false →
    step s = .next { s with env := rest, cart := { s.cart with modified := s.cart.modified.set i false } }) ∧
  (∀ (s : State) (r : Region) (rest : List Event), contended s = none → s.env = .mark r :: rest → s.cycIrqEnable = true →
    step s = .fault (.unmaskedMutation .regionModified { s with env := rest }))

/-- 42_dispatch.md R146: the enabled cycle interrupt runs exactly the operation the slot selects, on the state in which the
host cycle has arrived; an empty slot faults NO_HANDLER (60_exceptions.md R227). The cycle finds no bus driven from both
sides (40_bus_primitives.md R115). -/
def Obligations.CycleInterruptRunsSlotHandler : Prop :=
  ∀ (s : State) (c : HostCycle) (rest : List Event),
    s.env = .cycle c :: rest → c.timing = none → s.cycIrqEnable = true → contended s = none →
    edgeContention (latchCycle c { s with env := rest }) = none →
      (∀ h, s.slot = .terminal h → step s = exec (.cycleTerminal h) (latchCycle c { s with env := rest })) ∧
      (∀ h, s.slot = .composite h → step s = exec (.cycleComposite h) (latchCycle c { s with env := rest })) ∧
      (∀ code i, s.slot = .dma code → decode (.dmaState code) = .ok i →
        step s = exec i (latchCycle c { s with env := rest })) ∧
      (s.slot = .none → step s = .fault (.noHandler (latchCycle c { s with env := rest })))

/-- 41_phase_tracker.md R129, 10_state.md R34: a host cycle latches its start edge into `cap`, sets the pending flag and
presents its bus inputs; with the interrupt masked nothing else happens, where no bus is driven from both sides. Counter
and timer advance together (log entry 8). A match that finds the pending flag set counts as missed only while the interrupt
is enabled, in a timed cycle too (log entry 9). -/
def Obligations.MaskedCycleOnlyLatches : Prop :=
  ∀ (s : State) (c : HostCycle) (rest : List Event),
    (s.env = .cycle c :: rest → s.cycIrqEnable = false → contended s = none →
      edgeContention (latchCycle c { s with env := rest }) = none →
      step s = .next (latchCycle c { s with env := rest })) ∧
    latchCycle c s = { s with
      cap := (s.timer + c.edge) % 2 ^ s.cfg.timerBits
      timer := (s.timer + c.edge + c.latency) % 2 ^ s.cfg.timerBits
      cnt := s.cnt + BitVec.ofNat 32 (c.edge + c.latency)
      cycIrqPending := true
      inp := ⟨c.addr, c.ctrl, c.data, c.latency, c.timing⟩
      obs := ⟨none, none, none, none⟩ }

/-- 42_dispatch.md R144: in a `terminal(REU)` cycle whose word decodes to `i`, the operation that runs is `i`, on the state
in which the bus has been sampled; a read's byte is driven until phase-low. -/
def Obligations.RegisterCycleRunsDecodedOperation : Prop :=
  ∀ (s : State) (i : Instr), HostCycleReady s → decodeHostCyc (currentWord s) = .ok i →
    (s.inp.ctrl.rw = true → ∃ t v, exec i (sampled s) = .next t ∧ t.ret = .byte v ∧
      exec (.cycleTerminal .reu) s = .next (answered (startEdge s) v t)) ∧
    (s.inp.ctrl.rw = false → ∃ t, exec i (sampled s) = .next t ∧
      exec (.cycleTerminal .reu) s = .next { t with obs := { t.obs with data := some (dataRead s) } })

/-! ### Encoding -/

/-- 30_encoding.md R85, R87, R89, R90, R91: words written out from the tables. -/
def Obligations.SpecWordsDecode : Prop :=
  decode (.hostCyc 0x3DF00) = .ok (.rdStatus 0x6F8) ∧
  decode (.hostCyc 0x3DF26) = .ok (.rdBank 0x6F9) ∧
  decode (.hostCyc 0x2DF01) = .ok (.wrCommand 0x6F8) ∧
  decode (.hostCyc 0x3DF0F) = .ok (.rdUnused0C0F 0x6F8 3) ∧
  decode (.hostCyc 0x2DF1F) = .ok (.wrUnused101F 0x6F8 15) ∧
  decode (.hostCyc 0x0FF00) = .ok .wrFf00 ∧
  decode (.hostCyc 0x1FF00) = .error (.declined 0x1FF00) ∧
  decode (.cmdType 0xA1) = .ok (.cmdFetch false true false 0) ∧
  decode (.dmaState 0b110) = .ok .dmaSwap2 ∧
  decode (.dmaState 0b100) = .error (.reservedState 0b100) ∧
  decode (.op8 0x0D (.flag true)) = .ok (.busreqSet true) ∧
  decode (.op8 0x24 (.arm .b (-5))) = .ok (.armRefs .b (-5)) ∧
  decode (.op8 0x61 (.status true false)) = .ok (.finalize true false)

/-- 30_encoding.md R82: no operand bit of any operation is lost in its encoding. -/
def Obligations.DecodeUndoesEncode : Prop :=
  ∀ i : Instr, decode (encode i) = .ok i

/-- 30_encoding.md R96: each word has one meaning. -/
def Obligations.EncodeUndoesDecode : Prop :=
  ∀ (w : OpWord) (i : Instr), decode w = .ok i → encode i = w

/-- 30_encoding.md R86: two register words that differ only in bits 15:5 are the same operation. -/
def Obligations.MirrorsSelectSameOperation : Prop :=
  ∀ (v w : CycleWord) (i j : Instr) (s : State),
    v.getLsbD 17 = true → v &&& 0x3001F = w &&& 0x3001F →
      decodeHostCyc v = .ok i → decodeHostCyc w = .ok j → exec i s = exec j s

/-- 30_encoding.md R87: the trigger word is exactly `match 0x0FF00, mask 0x3FFFF`, and with `io2` asserted register decode
wins. -/
def Obligations.TriggerDecode : Prop :=
  (∀ w : CycleWord, decodeHostCyc w = .ok .wrFf00 ↔ w &&& 0x3FFFF = 0x0FF00) ∧
  (∀ w : CycleWord, decodeHostCyc w = .ok .wrFf00 ↔
    w.getLsbD 17 = false ∧ w.getLsbD 16 = false ∧ w.extractLsb' 0 16 = 0xFF00) ∧
  (∀ w : CycleWord, w.getLsbD 17 = true → ∃ i, decodeHostCyc w = .ok i ∧ i ≠ .wrFf00)

/-- 60_exceptions.md R228, 30_encoding.md R94: the three refusals. A reserved sequencer code is refused after the wait of its
cycle, which faults UNARMED where the references are not ready (44_dma_sequencer.md R190, log entries 24 and 26). -/
def Obligations.UnadmittedFormsRefused : Prop :=
  (∀ (s : State) (n : Byte) (arg : Arg) (rest : List Event), contended s = none → s.env = .op (.op8 n arg) :: rest →
    ¬ (0x01 ≤ n ∧ n ≤ 0x10) → ¬ (0x20 ≤ n ∧ n ≤ 0x27) → ¬ (0x40 ≤ n ∧ n ≤ 0x44) → n ≠ 0x60 → n ≠ 0x61 →
      step s = .refused (.unassignedNumber n)) ∧
  (∀ (s : State) (c : HostCycle) (code : BitVec 3) (rest : List Event), s.env = .cycle c :: rest → c.timing = none →
    s.cycIrqEnable = true → s.slot = .dma code → code = 0b100 ∨ code = 0b101 → contended s = none →
    edgeContention (latchCycle c { s with env := rest }) = none →
      (refsReady s = true → step s = .refused (.reservedState code)) ∧
      (refsReady s = false →
        step s = .fault (.unarmed .dmaCycle (enterHandler (latchCycle c { s with env := rest }))))) ∧
  (∀ (s : State) (offset : Int), exec (.enableInterface .none offset) s = .refused (.badMode .none)) ∧
  (∀ (s : State) (code : BitVec 3) (offset : Int),
    exec (.enableInterface (.dma code) offset) s = .refused (.badMode (.dma code)))

/-! ### Register operations -/

/-- 43_reu_registers.md R153 to R162: each returns its view and writes nothing. -/
def Obligations.RegisterReadsReturnViews : Prop :=
  ∀ (s : State) (m : BitVec 11),
    decode (.hostCyc (3#2 ++ m ++ 0x01#5)) = .ok (.rdCommand m) ∧
    decode (.hostCyc (3#2 ++ m ++ 0x02#5)) = .ok (.rdHostLo m) ∧
    decode (.hostCyc (3#2 ++ m ++ 0x03#5)) = .ok (.rdHostHi m) ∧
    decode (.hostCyc (3#2 ++ m ++ 0x04#5)) = .ok (.rdPerLo m) ∧
    decode (.hostCyc (3#2 ++ m ++ 0x05#5)) = .ok (.rdPerHi m) ∧
    decode (.hostCyc (3#2 ++ m ++ 0x06#5)) = .ok (.rdBank m) ∧
    decode (.hostCyc (3#2 ++ m ++ 0x07#5)) = .ok (.rdLenLo m) ∧
    decode (.hostCyc (3#2 ++ m ++ 0x08#5)) = .ok (.rdLenHi m) ∧
    decode (.hostCyc (3#2 ++ m ++ 0x09#5)) = .ok (.rdImr m) ∧
    decode (.hostCyc (3#2 ++ m ++ 0x0A#5)) = .ok (.rdAcr m) ∧
    exec (.rdCommand m) s = .next { s with ret := .byte (s.reg.command ||| 0x00) } ∧
    exec (.rdHostLo m) s = .next { s with ret := .byte (s.reg.hostLo ||| 0x00) } ∧
    exec (.rdHostHi m) s = .next { s with ret := .byte (s.reg.hostHi ||| 0x00) } ∧
    exec (.rdPerLo m) s = .next { s with ret := .byte (s.reg.perLo ||| 0x00) } ∧
    exec (.rdPerHi m) s = .next { s with ret := .byte (s.reg.perHi ||| 0x00) } ∧
    exec (.rdBank m) s = .next { s with ret := .byte (s.reg.bank ||| 0xF8) } ∧
    exec (.rdLenLo m) s = .next { s with ret := .byte (s.reg.lenLo ||| 0x00) } ∧
    exec (.rdLenHi m) s = .next { s with ret := .byte (s.reg.lenHi ||| 0x00) } ∧
    exec (.rdImr m) s = .next { s with ret := .byte (s.reg.imr ||| 0x1F) } ∧
    exec (.rdAcr m) s = .next { s with ret := .byte (s.reg.acr ||| 0x3F) }

/-- 43_reu_registers.md R152: the view before the clear; IP, EOB and VE cleared, the interrupt line deasserted. -/
def Obligations.StatusReadClears : Prop :=
  ∀ (s : State) (m : BitVec 11),
    decode (.hostCyc (3#2 ++ m ++ 0x00#5)) = .ok (.rdStatus m) ∧
    exec (.rdStatus m) s = .next { s with
      reg := { s.reg with status := s.reg.status &&& 0x1F }
      irqOut := false
      ret := .byte (s.reg.status ||| 0x10) }

/-- 43_reu_registers.md R163, R164, R177: unused indices read 0xFF, and their writes and a STATUS write change nothing. -/
def Obligations.UnusedIndices : Prop :=
  ∀ (s : State) (m : BitVec 11) (sub : BitVec 2) (sub' : BitVec 4),
    decode (.hostCyc (3#2 ++ m ++ 0x0B#5)) = .ok (.rdUnused0B m) ∧
    decode (.hostCyc (3#2 ++ m ++ (3#3 ++ sub))) = .ok (.rdUnused0C0F m sub) ∧
    decode (.hostCyc (3#2 ++ m ++ (1#1 ++ sub'))) = .ok (.rdUnused101F m sub') ∧
    decode (.hostCyc (2#2 ++ m ++ 0x00#5)) = .ok (.wrStatus m) ∧
    decode (.hostCyc (2#2 ++ m ++ 0x0B#5)) = .ok (.wrUnused0B m) ∧
    decode (.hostCyc (2#2 ++ m ++ (3#3 ++ sub))) = .ok (.wrUnused0C0F m sub) ∧
    decode (.hostCyc (2#2 ++ m ++ (1#1 ++ sub'))) = .ok (.wrUnused101F m sub') ∧
    exec (.rdUnused0B m) s = .next { s with ret := .byte 0xFF } ∧
    exec (.rdUnused0C0F m sub) s = .next { s with ret := .byte 0xFF } ∧
    exec (.rdUnused101F m sub') s = .next { s with ret := .byte 0xFF } ∧
    exec (.wrStatus m) s = .next { s with ret := .none } ∧
    exec (.wrUnused0B m) s = .next { s with ret := .none } ∧
    exec (.wrUnused0C0F m sub) s = .next { s with ret := .none } ∧
    exec (.wrUnused101F m sub') s = .next { s with ret := .none }

/-- 43_reu_registers.md R151: every read with `io2` asserted is claimed with the byte of the decoded operation; the others
are declined and change nothing. -/
def Obligations.ReadHandlerClaimsWindow : Prop :=
  ∀ (s : State) (c : Ctrl) (a : Addr),
    (c.io2 = true → ∃ i v t, decodeHostCyc (wordOf a { c with rw := true }) = .ok i ∧
      exec i s = .next { t with ret := .byte v } ∧ reuRead c a s = (some v, t)) ∧
    (c.io2 = false → reuRead c a s = (none, s))

/-- 43_reu_registers.md R179: handled if and only if the write went to the register file or fired the trigger. -/
def Obligations.WriteHandlerHandles : Prop :=
  ∀ (s : State) (c : Ctrl) (a : Addr), slotIsDma s.slot = false →
    (c.io2 = true → ∃ i t, decodeHostCyc (wordOf a { c with rw := false }) = .ok i ∧
      exec i s = .next { t with ret := .none } ∧ reuWrite c a (dataRead s) s = .next (true, t)) ∧
    (c.io2 = false → a = 0xFF00 → s.reg.command.getLsbD 7 = true → s.reg.command.getLsbD 4 = false →
      ∃ t, exec .trigger s = .next { t with ret := .none } ∧ reuWrite c a (dataRead s) s = .next (true, t)) ∧
    (c.io2 = false → ¬ (a = 0xFF00 ∧ s.reg.command.getLsbD 7 = true ∧ s.reg.command.getLsbD 4 = false) →
      reuWrite c a (dataRead s) s = .next (false, s))

/-- 43_reu_registers.md R166 to R169, R171, R172: the written byte and its shadow take the data byte, the live partner is
reloaded from its shadow. -/
def Obligations.HalfAutoloadWrites : Prop :=
  ∀ (s : State) (m : BitVec 11),
    decode (.hostCyc (2#2 ++ m ++ 0x02#5)) = .ok (.wrHostLo m) ∧
    decode (.hostCyc (2#2 ++ m ++ 0x03#5)) = .ok (.wrHostHi m) ∧
    decode (.hostCyc (2#2 ++ m ++ 0x04#5)) = .ok (.wrPerLo m) ∧
    decode (.hostCyc (2#2 ++ m ++ 0x05#5)) = .ok (.wrPerHi m) ∧
    decode (.hostCyc (2#2 ++ m ++ 0x07#5)) = .ok (.wrLenLo m) ∧
    decode (.hostCyc (2#2 ++ m ++ 0x08#5)) = .ok (.wrLenHi m) ∧
    exec (.wrHostLo m) s = .next { s with
      reg := { s.reg with hostLo := dataRead s, hostHi := s.shadow.hostHi }
      shadow := { s.shadow with hostLo := dataRead s }
      ret := .none } ∧
    exec (.wrHostHi m) s = .next { s with
      reg := { s.reg with hostHi := dataRead s, hostLo := s.shadow.hostLo }
      shadow := { s.shadow with hostHi := dataRead s }
      ret := .none } ∧
    exec (.wrPerLo m) s = .next { s with
      reg := { s.reg with perLo := dataRead s, perHi := s.shadow.perHi }
      shadow := { s.shadow with perLo := dataRead s }
      ret := .none } ∧
    exec (.wrPerHi m) s = .next { s with
      reg := { s.reg with perHi := dataRead s, perLo := s.shadow.perLo }
      shadow := { s.shadow with perHi := dataRead s }
      ret := .none } ∧
    exec (.wrLenLo m) s = .next { s with
      reg := { s.reg with lenLo := dataRead s, lenHi := s.shadow.lenHi }
      shadow := { s.shadow with lenLo := dataRead s }
      ret := .none } ∧
    exec (.wrLenHi m) s = .next { s with
      reg := { s.reg with lenHi := dataRead s, lenLo := s.shadow.lenLo }
      shadow := { s.shadow with lenHi := dataRead s }
      ret := .none }

/-- 43_reu_registers.md R170, R173, R174: BANK, IMR and ACR are stored with their shadow, and nothing else changes; in
particular an IMR write does not evaluate the interrupt condition. -/
def Obligations.SingleRegisterWrites : Prop :=
  ∀ (s : State) (m : BitVec 11),
    decode (.hostCyc (2#2 ++ m ++ 0x06#5)) = .ok (.wrBank m) ∧
    decode (.hostCyc (2#2 ++ m ++ 0x09#5)) = .ok (.wrImr m) ∧
    decode (.hostCyc (2#2 ++ m ++ 0x0A#5)) = .ok (.wrAcr m) ∧
    exec (.wrBank m) s = .next { s with
      reg := { s.reg with bank := dataRead s }
      shadow := { s.shadow with bank := dataRead s }
      ret := .none } ∧
    exec (.wrImr m) s = .next { s with
      reg := { s.reg with imr := dataRead s }
      shadow := { s.shadow with imr := dataRead s }
      ret := .none } ∧
    exec (.wrAcr m) s = .next { s with
      reg := { s.reg with acr := dataRead s }
      shadow := { s.shadow with acr := dataRead s }
      ret := .none }

/-- 43_reu_registers.md R175: COMMAND is stored; EXEC with bit 4 set starts the transfer of TYPE at once, or faults
DMA_RETRIGGER in a transfer, the byte stored; any other byte only arms or disarms. -/
def Obligations.CommandWrite : Prop :=
  ∀ (s : State) (m : BitVec 11) (d : Byte), dataRead s = d →
    decode (.hostCyc (2#2 ++ m ++ 0x01#5)) = .ok (.wrCommand m) ∧
    (d.getLsbD 7 = true → d.getLsbD 4 = true → slotIsDma s.slot = false →
      exec (.wrCommand m) s = .next { s with
        reg := { s.reg with command := d }
        shadow := { s.shadow with command := d }
        savedSlot := s.slot
        slot := .dma (0#1 ++ d.extractLsb' 0 2)
        busReq := true
        ret := .none }) ∧
    (d.getLsbD 7 = true → d.getLsbD 4 = true → slotIsDma s.slot = true →
      exec (.wrCommand m) s = .fault (.dmaRetrigger d { s with
        reg := { s.reg with command := d }
        shadow := { s.shadow with command := d } })) ∧
    (¬ (d.getLsbD 7 = true ∧ d.getLsbD 4 = true) →
      exec (.wrCommand m) s = .next { s with
        reg := { s.reg with command := d }
        shadow := { s.shadow with command := d }
        ret := .none })

/-- 43_reu_registers.md R176, 60_exceptions.md R229: the trigger saves the slot, installs the initial state of TYPE and
asserts the bus request; in a transfer it faults with the COMMAND byte. -/
def Obligations.TriggerInstallsTransfer : Prop :=
  ∀ s : State,
    decode (.op8 0x60 .none) = .ok .trigger ∧
    (slotIsDma s.slot = false → exec .trigger s = .next { s with
      savedSlot := s.slot
      slot := .dma (0#1 ++ s.reg.command.extractLsb' 0 2)
      busReq := true
      ret := .none }) ∧
    (slotIsDma s.slot = true → exec .trigger s = .fault (.dmaRetrigger s.reg.command s))

/-- 30_encoding.md R89: the match and mask of the four transfer types over the COMMAND byte, and the initial state of each.
That a CMD row starts its transfer whatever the live COMMAND and its other bits hold, and that the trigger is the operation
its live COMMAND byte decodes to, is log entry 12. -/
def Obligations.CommandTypesSelectState : Prop :=
  (∀ b : Byte, (b &&& 0x83 = 0x80 ↔ ∃ x a f r, decodeCmdType b = .ok (.cmdStash x a f r)) ∧
    (b &&& 0x83 = 0x81 ↔ ∃ x a f r, decodeCmdType b = .ok (.cmdFetch x a f r)) ∧
    (b &&& 0x83 = 0x82 ↔ ∃ x a f r, decodeCmdType b = .ok (.cmdSwap x a f r)) ∧
    (b &&& 0x83 = 0x83 ↔ ∃ x a f r, decodeCmdType b = .ok (.cmdVerify x a f r))) ∧
  (∀ (s : State) (x a f : Bool) (r : BitVec 2), slotIsDma s.slot = false →
    let started := fun code => { s with savedSlot := s.slot, slot := .dma code, busReq := true, ret := .none }
    exec (.cmdStash x a f r) s = .next (started 0b000) ∧ exec (.cmdFetch x a f r) s = .next (started 0b001) ∧
      exec (.cmdSwap x a f r) s = .next (started 0b010) ∧ exec (.cmdVerify x a f r) s = .next (started 0b011)) ∧
  (∀ (s : State) (i : Instr), decodeCmdType s.reg.command = .ok i → exec .trigger s = exec i s)

/-- 43_reu_registers.md R178, R180: a $FF00 write is the trigger when EXEC is 1 and bit 4 is 0, whatever the data byte, and
nothing otherwise; no read word is a $FF00 write. -/
def Obligations.Ff00WriteStartsArmedTransfer : Prop :=
  (∀ s : State, s.reg.command.getLsbD 7 = true → s.reg.command.getLsbD 4 = false → exec .wrFf00 s = exec .trigger s) ∧
  (∀ s : State, s.reg.command.getLsbD 7 = false ∨ s.reg.command.getLsbD 4 = true →
    exec .wrFf00 s = .next { s with ret := .none }) ∧
  (∀ s : State, s.reg.command.getLsbD 7 = true → s.reg.command.getLsbD 4 = false → slotIsDma s.slot = false →
    exec .wrFf00 s = .next { s with
      savedSlot := s.slot
      slot := .dma (0#1 ++ s.reg.command.extractLsb' 0 2)
      busReq := true
      ret := .none }) ∧
  (∀ w : CycleWord, w.getLsbD 17 = false → w.getLsbD 16 = true → decodeHostCyc w = .error (.declined w))

/-- 30_encoding.md R98, 43_reu_registers.md R165: both halves of a pair written, in either order, leave live and shadow
equal to the written pair, whatever they were before. -/
def Obligations.PairWrittenInEitherOrder : Prop :=
  ∀ (s : State) (m : BitVec 11) (lo hi : Byte), s.dataDir = .input →
    let after := fun i j (v w : Byte) (t : State) => ∃ u, exec i { s with inp := { s.inp with data := v } } = .next u ∧
      exec j { u with inp := { u.inp with data := w } } = .next t
    (∀ t, after (.wrHostLo m) (.wrHostHi m) lo hi t ∨ after (.wrHostHi m) (.wrHostLo m) hi lo t →
      t.reg.hostHi ++ t.reg.hostLo = hi ++ lo ∧ t.shadow.hostHi ++ t.shadow.hostLo = hi ++ lo) ∧
    (∀ t, after (.wrPerLo m) (.wrPerHi m) lo hi t ∨ after (.wrPerHi m) (.wrPerLo m) hi lo t →
      t.reg.perHi ++ t.reg.perLo = hi ++ lo ∧ t.shadow.perHi ++ t.shadow.perLo = hi ++ lo ∧ t.reg.bank = s.reg.bank) ∧
    (∀ t, after (.wrLenLo m) (.wrLenHi m) lo hi t ∨ after (.wrLenHi m) (.wrLenLo m) hi lo t →
      t.reg.lenHi ++ t.reg.lenLo = hi ++ lo ∧ t.shadow.lenHi ++ t.shadow.lenLo = hi ++ lo) ∧
    ∃ t, after (.wrHostLo m) (.wrHostHi m) lo hi t

/-! ### Dispatch -/

/-- 42_dispatch.md R144, R145, R148: a terminal and a composite cycle complete; what they leave unchanged; no write cycle and
no declined read drives the data bus. Without armed references (60_exceptions.md R225) or with the clock unclassified
(41_phase_tracker.md R121, log entry 24) the first wait faults UNARMED, and a bus driven from both sides is CONTENTION (40_bus_primitives.md R115), found before anything else and named in the order of
`contended` (log entry 27), with the word of the pins (log entry 28). -/
def Obligations.HostCyclesComplete : Prop :=
  ∀ (s : State) (h : Pair) (i : Instr), i = .cycleTerminal h ∨ i = .cycleComposite h →
    (∀ b, contended s = some b → exec i s = .fault (.contention b (currentWord s) s)) ∧
    (contended s = none → s.ref.armed = false ∨ s.profile = .unclassified →
      exec i s = .fault (.unarmed .hostCycle (enterHandler s))) ∧
    (HostCycleReady s → ∃ t, exec i s = .next t ∧ HostCycleFrame s t ∧ t.obs.word = some (currentWord s) ∧ t.obs.dmaAddr = none ∧
      (s.inp.ctrl.rw = false → t.obs.data = some (dataRead s)) ∧
      (s.inp.ctrl.rw = true → t.obs.data = none ∧ t.shadow = s.shadow ∧ t.slot = s.slot ∧ t.savedSlot = s.savedSlot ∧
        t.busReq = s.busReq) ∧
      (∀ v, t.obs.driven = some v → s.inp.ctrl.rw = true ∧ t.dataDir = .input ∧ t.dataLatch = v) ∧
      (t.obs.driven = none → t.dataDir = s.dataDir ∧ t.dataLatch = s.dataLatch))

/-- 42_dispatch.md R142, R143: a terminal cycle is the installed pair's handler on the sample; a claimed read is driven until
phase-low. -/
def Obligations.TerminalCycleRunsPair : Prop :=
  ∀ (s : State) (h : Pair), HostCycleReady s →
    let C := s.inp.ctrl
    let A := addrRead s
    (C.rw = true → ∀ v u, pairRead h C A (sampled s) = (some v, u) →
      exec (.cycleTerminal h) s = .next (answered (startEdge s) v u)) ∧
    (C.rw = true → ∀ u, pairRead h C A (sampled s) = (none, u) →
      exec (.cycleTerminal h) s = .next { u with ret := .none }) ∧
    (C.rw = false → ∀ b u, pairWrite h C A (dataRead s) (sampled s) = .next (b, u) →
      exec (.cycleTerminal h) s = .next { u with ret := .none, obs := { u.obs with data := some (dataRead s) } })

/-- 42_dispatch.md R145: the primary pair is tried first, the REU pair only where it declines, on the state the primary
left. -/
def Obligations.CompositeTriesPrimaryFirst : Prop :=
  ∀ (s : State) (h : Pair), s.rwDir = .input →
    let C := s.inp.ctrl
    let A := addrRead s
    (C.rw = true → (pairRead h C A (sampled s)).1 ≠ none → exec (.cycleComposite h) s = exec (.cycleTerminal h) s) ∧
    (C.rw = true → pairRead h C A (sampled s) = (none, sampled s) →
      exec (.cycleComposite h) s = exec (.cycleTerminal .reu) s) ∧
    (C.rw = false → ∀ u, pairWrite h C A (dataRead s) (sampled s) = .next (true, u) →
      exec (.cycleComposite h) s = exec (.cycleTerminal h) s) ∧
    (C.rw = false → pairWrite h C A (dataRead s) (sampled s) = .next (false, sampled s) →
      exec (.cycleComposite h) s = exec (.cycleTerminal .reu) s) ∧
    (HostCycleReady s → C.rw = true → ∀ u, pairRead h C A (sampled s) = (none, u) →
      (∀ v w, reuRead C A u = (some v, w) → exec (.cycleComposite h) s = .next (answered (startEdge s) v w)) ∧
      (∀ w, reuRead C A u = (none, w) → exec (.cycleComposite h) s = .next { w with ret := .none })) ∧
    (HostCycleReady s → C.rw = false → ∀ u, pairWrite h C A (dataRead s) (sampled s) = .next (false, u) →
      ∃ b w, reuWrite C A (dataRead s) u = .next (b, w) ∧
        exec (.cycleComposite h) s = .next { w with ret := .none, obs := { w.obs with data := some (dataRead s) } })

/-- 42_dispatch.md R133, 60_exceptions.md R226: external code installs a handler only while the interrupt is masked. An
issued INSTALL_HANDLER is external code (log entry 13). -/
def Obligations.InstallHandlerWhileMasked : Prop :=
  ∀ (s : State) (h : Handler),
    (s.cycIrqEnable = false → exec (.installHandler h) s = .next { s with slot := h, ret := .none }) ∧
    (s.cycIrqEnable = true → exec (.installHandler h) s = .fault (.unmaskedMutation .slot s))

/-- 42_dispatch.md R134, 70_reset_and_hazards.md R244, R245: with a clock whose first samples are a run of profile `p`, an
ENABLE_INTERFACE ends Active with the references armed, the register file at its entry values if the mode uses the REU, and
memory kept; an offset out of range faults BAD_OFFSET, Idle with the clock classified. One attempt is one step (log entry
7); the modified flags of a variant's regions are false at mode entry (log entry 23), and a variant's own state is free (log
entry 10). -/
def Obligations.EnableInterfaceActivates : Prop :=
  ∀ (s : State) (mode : Handler) (offset : Int) (p : Profile) (b : Base) (xs rest : List (Option Nat)),
    mode.isMode = true → 1 ≤ s.cfg.classifyRun → s.cfg.classifyRun ≤ s.cfg.classifyMax →
      (p = .a ∧ b = s.cfg.baseA ∨ p = .b ∧ b = s.cfg.baseB) →
      s.intervals = xs ++ rest → xs.length = s.cfg.classifyRun → (∀ c ∈ xs, sampleClass s.cfg c = p) →
      (-30 ≤ offset → offset ≤ 30 → ∃ t, exec (.enableInterface mode offset) s = .next t ∧
        t.ifState = .active ∧ t.profile = p ∧ t.cycIrqEnable = true ∧ t.cycIrqPending = false ∧ t.slot = mode ∧
        t.savedSlot = .none ∧ t.led = s.led ∧ t.mem = s.mem ∧ t.intervals = rest ∧ t.env = s.env ∧
        t.ref = ⟨BitVec.ofInt 32 (b.dmaHigh + offset), BitVec.ofInt 32 (b.high + offset),
          BitVec.ofInt 32 (b.low + offset), offset, true⟩ ∧
        (usesReu mode = true → t.reg = ⟨0x00, 0x10, 0x00, 0x00, 0x00, 0x00, 0x00, 0xFF, 0xFF, 0x00, 0x00⟩ ∧
          t.shadow = ⟨0x10, 0x00, 0x00, 0x00, 0x00, 0x00, 0xFF, 0xFF, 0x00, 0x00⟩ ∧ t.regionModified = false) ∧
        (usesReu mode = false → t.reg = s.reg ∧ t.shadow = s.shadow ∧ t.swapLatch = s.swapLatch ∧
          t.regionModified = s.regionModified) ∧
        (s.ifState = .active → BusUntouched t) ∧
        (s.ifState = .idle → t.addrDir = s.addrDir ∧ t.dataDir = s.dataDir ∧ t.rwDir = s.rwDir ∧ t.busReq = s.busReq ∧
          t.irqOut = s.irqOut ∧ t.cartLines = s.cartLines) ∧
        t.cfg = s.cfg ∧ t.cnt = s.cnt ∧ t.timer = s.timer ∧ t.cap = s.cap ∧ t.addrLatch = s.addrLatch ∧
        t.dataLatch = s.dataLatch ∧ t.rwLatch = s.rwLatch ∧ t.inp = s.inp ∧ t.ret = .none ∧
        (∀ f ∈ t.cart.modified, f = false) ∧
        ((∀ n, mode ≠ .terminal (.cart n) ∧ mode ≠ .composite (.cart n)) → t.cart.code = s.cart.code)) ∧
      (offset < -30 ∨ 30 < offset → ∃ u, exec (.enableInterface mode offset) s = .fault (.badOffset offset u) ∧
        u.ifState = .idle ∧ u.profile = p ∧ u.cycIrqEnable = false ∧ u.ref = s.ref ∧ u.reg = s.reg ∧
        u.shadow = s.shadow ∧ u.mem = s.mem ∧ u.intervals = rest ∧ (s.ifState = .active → BusUntouched u))

/-- 41_phase_tracker.md R122, 42_dispatch.md R134: with no clock in a whole attempt, ENABLE_INTERFACE leaves the interface
Idle, masked and unclassified with the led toggled, and has not returned: it is the next operation again (log entry 7). -/
def Obligations.EnableInterfaceWaitsForClock : Prop :=
  ∀ (s : State) (mode : Handler) (offset : Int) (xs rest : List (Option Nat)),
    mode.isMode = true → 1 ≤ s.cfg.classifyRun → s.intervals = xs ++ rest → xs.length = s.cfg.classifyMax →
      (∀ c ∈ xs, sampleClass s.cfg c = .unclassified) →
      ∃ t, exec (.enableInterface mode offset) s = .next t ∧ t.ifState = .idle ∧ t.profile = .unclassified ∧
        t.cycIrqEnable = false ∧ t.led = !s.led ∧ t.intervals = rest ∧ t.mem = s.mem ∧ t.reg = s.reg ∧
        t.shadow = s.shadow ∧ t.ref = s.ref ∧ t.env = .op (.op8 0x41 (.mode mode offset)) :: s.env ∧
        (s.ifState = .active → BusUntouched t) ∧
        (s.ifState = .idle → t.addrDir = s.addrDir ∧ t.dataDir = s.dataDir ∧ t.rwDir = s.rwDir ∧
          t.busReq = s.busReq ∧ t.irqOut = s.irqOut ∧ t.cartLines = s.cartLines ∧ t.slot = s.slot)

/-- 42_dispatch.md R135: masked, both slots empty, all buses released and outputs deasserted, Idle; nothing else changes. -/
def Obligations.DisableInterface : Prop :=
  decode (.op8 0x42 .none) = .ok .disableInterface ∧
    ∀ s : State, exec .disableInterface s = .next { s with
    cycIrqEnable := false
    slot := .none
    savedSlot := .none
    dataDir := .input
    addrDir := .input
    rwDir := .input
    busReq := false
    irqOut := false
    cartLines := .deasserted
    ifState := .idle
    ret := .none }

/-! ### Phase clock tracker -/

/-- 41_phase_tracker.md R118: the class of a sample, over the exact deviations. -/
def Obligations.SampleClassification : Prop :=
  ∀ (s : State) (c : Option Nat), decode (.op8 0x21 (.interval c)) = .ok (.classifySample c) ∧
    ∃ r,
    exec (.classifySample c) s = .next { s with ret := .profile r } ∧
    (c = none → r = .unclassified) ∧
    ∀ n, c = some n →
      let devA := ((n : Int) * 985248 - s.cfg.fMcu).natAbs
      let devB := ((n : Int) * 1022727 - s.cfg.fMcu).natAbs
      let okA := 1000 * devA ≤ s.cfg.tol * s.cfg.fMcu
      let okB := 1000 * devB ≤ s.cfg.tol * s.cfg.fMcu
      (r = .a ↔ okA ∧ (¬ okB ∨ devA * 1022727 ≤ devB * 985248)) ∧
      (r = .b ↔ okB ∧ ¬ (okA ∧ devA * 1022727 ≤ devB * 985248)) ∧
      (r = .unclassified ↔ ¬ okA ∧ ¬ okB)

/-- 41_phase_tracker.md R119: within 4 % of a profile a sample goes to the nearer one; beyond 6 % of both it is rejected;
between, TOL decides. -/
def Obligations.ClassificationBands : Prop :=
  ∀ (cfg : Params) (n : Nat), 0 < cfg.fMcu → 40 ≤ cfg.tol → cfg.tol < 60 →
    let devA := ((n : Int) * 985248 - cfg.fMcu).natAbs
    let devB := ((n : Int) * 1022727 - cfg.fMcu).natAbs
    (1000 * devA ≤ 40 * cfg.fMcu ∨ 1000 * devB ≤ 40 * cfg.fMcu →
      classifySample cfg (some n) = if devA * 1022727 ≤ devB * 985248 then .a else .b) ∧
    (60 * cfg.fMcu < 1000 * devA → 60 * cfg.fMcu < 1000 * devB → classifySample cfg (some n) = .unclassified) ∧
    (40 * cfg.fMcu < 1000 * devA → 40 * cfg.fMcu < 1000 * devB →
      (classifySample cfg (some n) = .unclassified ↔ cfg.tol * cfg.fMcu < 1000 * min devA devB))

/-- 41_phase_tracker.md R120: over listed samples, CLASSIFY_CLOCK finds the first stable run, or fails after CLASSIFY_MAX
samples. The samples are listed in the state (log entry 6). -/
def Obligations.ClassifyClockFindsFirstRun : Prop :=
  ∀ (s : State) (xs rest : List (Option Nat)),
    1 ≤ s.cfg.classifyRun → s.intervals = xs ++ rest → xs.length = s.cfg.classifyMax →
      (∀ p k, RunAt s.cfg xs p k → (∀ q j, j < k → ¬ RunAt s.cfg xs q j) →
        exec .classifyClock s = .next { s with
          profile := p
          intervals := xs.drop k ++ rest
          ret := .classified (some p) }) ∧
      ((∀ p k, ¬ RunAt s.cfg xs p k) →
        exec .classifyClock s = .next { s with
          profile := .unclassified
          intervals := rest
          ret := .classified none })

/-- 41_phase_tracker.md R122: one pass is a CLASSIFY_CLOCK; with a profile the operation returns it, without one the led is
toggled and the operation is the next one again (log entry 7). -/
def Obligations.WaitValidClockPass : Prop :=
  ∀ s : State, ∃ r t, exec .classifyClock s = .next t ∧ t.ret = .classified r ∧ t.led = s.led ∧ t.env = s.env ∧
    (r ≠ none → exec .waitValidClock s = .next t) ∧
    (r = none → exec .waitValidClock s = .next { t with led := !s.led, env := .op (.op8 0x23 .none) :: s.env })

/-- 41_phase_tracker.md R123, 60_exceptions.md R218, R224 to R226: ARM_REFS writes the three instants, the offset and the
armed flag; UNARMED, of an Unclassified operand or state item `profile` (log entry 24), comes before BAD_OFFSET. An issued
ARM_REFS is external code (log entry 13). -/
def Obligations.ArmReferences : Prop :=
  ∀ (s : State) (p : Profile) (b : Base) (offset : Int),
    (p = .a ∧ b = s.cfg.baseA ∨ p = .b ∧ b = s.cfg.baseB → s.profile ≠ .unclassified →
      (-30 ≤ offset → offset ≤ 30 → s.cycIrqEnable = false →
        exec (.armRefs p offset) s = .next { s with
          ref := ⟨BitVec.ofInt 32 (b.dmaHigh + offset), BitVec.ofInt 32 (b.high + offset),
            BitVec.ofInt 32 (b.low + offset), offset, true⟩
          ret := .none }) ∧
      (-30 ≤ offset → offset ≤ 30 → s.cycIrqEnable = true →
        exec (.armRefs p offset) s = .fault (.unmaskedMutation .ref s)) ∧
      (offset < -30 ∨ 30 < offset → exec (.armRefs p offset) s = .fault (.badOffset offset s))) ∧
    (p = .unclassified ∨ s.profile = .unclassified → exec (.armRefs p offset) s = .fault (.unarmed .armRefs s))

/-- 41_phase_tracker.md R124: with admitted parameters the armed instants are `BASE + offset` exactly, ordered from 0 and
below the nominal period, so two offsets differ in every instant by their difference. Admitted parameters
also bound the instants to 32 bits (log entry 8). -/
def Obligations.ReferenceOrdering : Prop :=
  ∀ (s t : State) (p : Profile) (offset : Int), s.cfg.admitted = true → exec (.armRefs p offset) s = .next t →
    t.ref.dmaHigh.toNat < t.ref.high.toNat ∧ t.ref.high.toNat < t.ref.low.toNat ∧
      (p = .a → t.ref.low.toNat * 985248 < s.cfg.fMcu ∧ (t.ref.dmaHigh.toNat : Int) = s.cfg.baseA.dmaHigh + offset ∧
        (t.ref.high.toNat : Int) = s.cfg.baseA.high + offset ∧ (t.ref.low.toNat : Int) = s.cfg.baseA.low + offset) ∧
      (p = .b → t.ref.low.toNat * 1022727 < s.cfg.fMcu ∧ (t.ref.dmaHigh.toNat : Int) = s.cfg.baseB.dmaHigh + offset ∧
        (t.ref.high.toNat : Int) = s.cfg.baseB.high + offset ∧ (t.ref.low.toNat : Int) = s.cfg.baseB.low + offset)

/-- 41_phase_tracker.md R125, R126, 42_dispatch.md R139: NOW returns the counter; RESYNC copies the timer; the start edge is
`cap`, a timer period earlier if the timer has wrapped since. A timer wider than 32 bits, and its `cap`, are taken modulo
2^32 (log entry 8). -/
def Obligations.CounterReads : Prop :=
  ∀ s : State,
    decode (.op8 0x25 .none) = .ok .now ∧
    decode (.op8 0x26 .none) = .ok .resync ∧
    exec .now s = .next { s with ret := .time s.cnt } ∧
    exec .resync s = .next { s with cnt := BitVec.ofNat 32 s.timer, ret := .none } ∧
    (s.cap ≤ s.timer → startEdge s = BitVec.ofNat 32 s.cap) ∧
    (s.timer < s.cap → startEdge s = BitVec.ofNat 32 s.cap - BitVec.ofNat 32 (2 ^ s.cfg.timerBits))

/-- 41_phase_tracker.md R127, R128, R130: WAIT_UNTIL returns with the target reached by the signed comparison, the duration,
and counter and timer advanced by it; in a timed cycle, where the window holds, else it faults TIMING. It stops exactly at
the target (log entry 8). Which cycles are timed is log entry 9. -/
def Obligations.WaitUntilReachesTarget : Prop :=
  ∀ (s : State) (t : Time),
    let edge := s.cnt - BitVec.ofNat 32 (sinceEdge s)
    ((∀ tm, s.inp.timing = some tm → InWindow s tm (t - edge) (sinceEdge s)) → ∃ d u, exec (.waitUntil t) s = .next u ∧
      u = { s with cnt := s.cnt + d, timer := (s.timer + d.toNat) % 2 ^ s.cfg.timerBits, ret := .time d } ∧
      0 ≤ (u.cnt - t).toInt ∧ (0 ≤ (s.cnt - t).toInt → d = 0) ∧ ((s.cnt - t).toInt < 0 → u.cnt = t)) ∧
    (∀ tm, s.inp.timing = some tm → ¬ InWindow s tm (t - edge) (sinceEdge s) →
      exec (.waitUntil t) s = .fault (.timing .waitWindow edge t s))

/-- 41_phase_tracker.md R117: a measurement is the next draw; one above MEASURE_TIMEOUT is `none`; a draw that the state does
not list is free (log entry 6). -/
def Obligations.MeasureIntervalDraws : Prop :=
  (∀ (s : State) (c : Option Nat) (rest : List (Option Nat)), s.intervals = c :: rest → ∃ d,
    exec .measureInterval s = .next { s with intervals := rest, ret := .interval d } ∧
    (∀ n, c = some n → n ≤ s.cfg.measureTimeout → d = some n) ∧
    (∀ n, c = some n → s.cfg.measureTimeout < n → d = none) ∧ (c = none → d = none)) ∧
  (∀ s : State, s.intervals = [] → ∃ d,
    exec .measureInterval s = .next { s with freeIdx := s.freeIdx + 1, ret := .interval d } ∧
    ∀ n, d = some n → n ≤ s.cfg.measureTimeout)

/-! ### Bus access primitives -/

/-- 40_bus_primitives.md R99, R103, R107, R108: a read gives the input, or the core's own latch while it drives. -/
def Obligations.PinReads : Prop :=
  ∀ s : State,
    let A := if s.addrDir = .input then s.inp.addr else s.addrLatch
    let C := if s.rwDir = .output then { s.inp.ctrl with rw := s.rwLatch } else s.inp.ctrl
    decode (.op8 0x01 .none) = .ok .addrRead ∧
    decode (.op8 0x05 .none) = .ok .dataRead ∧
    decode (.op8 0x09 .none) = .ok .ctrlRead ∧
    decode (.op8 0x0A .none) = .ok .busSample ∧
    exec .addrRead s = .next { s with ret := .addr A } ∧
    exec .dataRead s = .next { s with ret := .byte (if s.dataDir = .input then s.inp.data else s.dataLatch) } ∧
    exec .ctrlRead s = .next { s with ret := .ctrl C } ∧
    exec .busSample s = .next { s with ret := .sample A C }

/-- 40_bus_primitives.md R100, R101, R104, R105, R110 to R113: each writes its one item and nothing else. -/
def Obligations.LatchAndLineWrites : Prop :=
  ∀ (s : State) (a : Addr) (v : Byte) (b : Bool) (l : CartLines),
    decode (.op8 0x02 (.addr a)) = .ok (.addrDrive a) ∧
    decode (.op8 0x03 .none) = .ok .addrDirIn ∧
    decode (.op8 0x06 (.byte v)) = .ok (.dataDrive v) ∧
    decode (.op8 0x07 .none) = .ok .dataDirIn ∧
    decode (.op8 0x0C .none) = .ok .rwRelease ∧
    decode (.op8 0x0D (.flag b)) = .ok (.busreqSet b) ∧
    decode (.op8 0x0E (.flag b)) = .ok (.irqSet b) ∧
    decode (.op8 0x0F (.lines l)) = .ok (.cartLinesSet l) ∧
    exec (.addrDrive a) s = .next { s with addrLatch := a, ret := .none } ∧
    exec .addrDirIn s = .next { s with addrDir := .input, ret := .none } ∧
    exec (.dataDrive v) s = .next { s with dataLatch := v, ret := .none } ∧
    exec .dataDirIn s = .next { s with dataDir := .input, ret := .none } ∧
    exec .rwRelease s = .next { s with rwDir := .input, ret := .none } ∧
    exec (.busreqSet b) s = .next { s with busReq := b, ret := .none } ∧
    exec (.irqSet b) s = .next { s with irqOut := b, ret := .none } ∧
    exec (.cartLinesSet l) s = .next { s with cartLines := l, ret := .none }

/-- 40_bus_primitives.md R102, R106, R109, R115, 60_exceptions.md R222: the address bus and R/W are driven only with the bus
owned, the data bus not in a host write cycle; else CONTENTION with the bus and the word. A bus so driven in the current
cycle is CONTENTION at the next step, whatever that step is, and one so driven in the cycle that comes is so at its start
edge, before anything else, the interrupt masked or not (log entry 27). The word is that of the pins at the fault (log entry
28). -/
def Obligations.DrivingNeedsOwnership : Prop :=
  ∀ (s : State) (b : Bool),
    decode (.op8 0x04 .none) = .ok .addrDirOut ∧
    decode (.op8 0x08 .none) = .ok .dataDirOut ∧
    decode (.op8 0x0B (.flag b)) = .ok (.rwDrive b) ∧
    (s.busReq = true → exec .addrDirOut s = .next { s with addrDir := .output, ret := .none }) ∧
    (s.busReq = false → exec .addrDirOut s = .fault (.contention .address (currentWord s) s)) ∧
    (s.busReq = true → exec (.rwDrive b) s = .next { s with rwLatch := b, rwDir := .output, ret := .none }) ∧
    (s.busReq = false → exec (.rwDrive b) s = .fault (.contention .rw (currentWord s) s)) ∧
    (s.inp.ctrl.rw = true ∨ s.busReq = true → exec .dataDirOut s = .next { s with dataDir := .output, ret := .none }) ∧
    (s.inp.ctrl.rw = false → s.busReq = false →
      exec .dataDirOut s = .fault (.contention .data (currentWord s) s)) ∧
    ((∃ a, DrivenAgainst s s.inp.ctrl.rw a) →
      ∃ a, DrivenAgainst s s.inp.ctrl.rw a ∧ step s = .fault (.contention a (currentWord s) s)) ∧
    (∀ (c : HostCycle) (rest : List Event), s.env = .cycle c :: rest →
      let t := latchCycle c { s with env := rest }
      (∃ a, DrivenAgainst s c.ctrl.rw a) → ∃ a u, (u = s ∨ u = t) ∧ DrivenAgainst u u.inp.ctrl.rw a ∧
        step s = .fault (.contention a (currentWord u) u))

/-- 40_bus_primitives.md R114: all three buses released, all outputs deasserted. -/
def Obligations.BusSafeIdle : Prop :=
  decode (.op8 0x10 .none) = .ok .busSafeIdle ∧
    ∀ s : State, exec .busSafeIdle s = .next { s with
    dataDir := .input
    addrDir := .input
    rwDir := .input
    busReq := false
    irqOut := false
    cartLines := .deasserted
    ret := .none }

/-! ### DMA sequencer -/

/-- 44_dma_sequencer.md R191 to R195: a STASH cycle reads the host byte and stores it at the masked peripheral address. -/
def Obligations.StashCycle : Prop :=
  decode (.dmaState 0b000) = .ok .dmaStash ∧
    ∀ s : State, DmaReady s → ∃ t g, exec .dmaStash s = .next t ∧ Stepped s.cfg.reuSize s.reg g ∧ ReadPins s t ∧
    DmaFrame s t ∧ t.swapLatch = s.swapLatch ∧
    memRead t.mem (perOffset s) = dataRead s ∧ (∀ a, a ≠ perOffset s → memRead t.mem a = memRead s.mem a) ∧
    t.regionModified = (s.regionModified || s.cfg.dmaMarksModified) ∧
    (LastCycle s → Finalized true false g s t) ∧ (¬ LastCycle s → Continues 0b000 s.dataDir g s t)

/-- 44_dma_sequencer.md R196: a FETCH cycle writes the peripheral byte to the host address and stores nothing. -/
def Obligations.FetchCycle : Prop :=
  decode (.dmaState 0b001) = .ok .dmaFetch ∧
    ∀ s : State, DmaReady s → ∃ t g, exec .dmaFetch s = .next t ∧ Stepped s.cfg.reuSize s.reg g ∧
    WritePins (memRead s.mem (perOffset s)) s t ∧ DmaFrame s t ∧ t.swapLatch = s.swapLatch ∧ t.mem = s.mem ∧
    t.regionModified = s.regionModified ∧
    (LastCycle s → Finalized true false g s t) ∧ (¬ LastCycle s → Continues 0b001 .input g s t)

/-- 44_dma_sequencer.md R197: a SWAP1 cycle latches the host byte and goes on to SWAP2; nothing advances. -/
def Obligations.SwapFirstHalf : Prop :=
  decode (.dmaState 0b010) = .ok .dmaSwap1 ∧
    ∀ s : State, DmaReady s → ∃ t, exec .dmaSwap1 s = .next t ∧ ReadPins s t ∧ DmaFrame s t ∧
    t.swapLatch = dataRead s ∧ t.slot = .dma 0b110 ∧ t.reg = s.reg ∧ t.mem = s.mem ∧
    t.regionModified = s.regionModified ∧ t.savedSlot = s.savedSlot ∧ t.busReq = s.busReq ∧ t.irqOut = s.irqOut ∧
    t.addrDir = .output ∧ t.rwDir = .output ∧ t.dataDir = s.dataDir

/-- 44_dma_sequencer.md R198: a SWAP2 cycle writes the peripheral byte to the host and stores the latched host byte. -/
def Obligations.SwapSecondHalf : Prop :=
  decode (.dmaState 0b110) = .ok .dmaSwap2 ∧
    ∀ s : State, DmaReady s → ∃ t g, exec .dmaSwap2 s = .next t ∧ Stepped s.cfg.reuSize s.reg g ∧
    WritePins (memRead s.mem (perOffset s)) s t ∧ DmaFrame s t ∧ t.swapLatch = s.swapLatch ∧
    memRead t.mem (perOffset s) = s.swapLatch ∧ (∀ a, a ≠ perOffset s → memRead t.mem a = memRead s.mem a) ∧
    t.regionModified = (s.regionModified || s.cfg.dmaMarksModified) ∧
    (LastCycle s → Finalized true false g s t) ∧ (¬ LastCycle s → Continues 0b010 .input g s t)

/-- 44_dma_sequencer.md R199: a VERIFY cycle compares; a mismatch before the last byte goes to VERIFY_ERR, one on the last
byte reports both flags. -/
def Obligations.VerifyCycle : Prop :=
  decode (.dmaState 0b011) = .ok .dmaVerify ∧
    ∀ s : State, DmaReady s → ∃ t g, exec .dmaVerify s = .next t ∧ Stepped s.cfg.reuSize s.reg g ∧ ReadPins s t ∧
    DmaFrame s t ∧ t.swapLatch = s.swapLatch ∧ t.mem = s.mem ∧ t.regionModified = s.regionModified ∧
    (dataRead s = memRead s.mem (perOffset s) → LastCycle s → Finalized true false g s t) ∧
    (dataRead s = memRead s.mem (perOffset s) → ¬ LastCycle s → Continues 0b011 s.dataDir g s t) ∧
    (dataRead s ≠ memRead s.mem (perOffset s) → LastCycle s → Finalized true true g s t) ∧
    (dataRead s ≠ memRead s.mem (perOffset s) → ¬ LastCycle s → Continues 0b111 s.dataDir g s t)

/-- 44_dma_sequencer.md R200: a VERIFY_ERR cycle re-reads, steps and finalizes; end of block is reported only for a last byte
that matches. -/
def Obligations.VerifyErrorCycle : Prop :=
  decode (.dmaState 0b111) = .ok .dmaVerifyErr ∧
    ∀ s : State, DmaReady s → ∃ t g, exec .dmaVerifyErr s = .next t ∧ Stepped s.cfg.reuSize s.reg g ∧ ReadPins s t ∧
    DmaFrame s t ∧ t.swapLatch = s.swapLatch ∧ t.mem = s.mem ∧ t.regionModified = s.regionModified ∧
    (LastCycle s → dataRead s = memRead s.mem (perOffset s) → Finalized true true g s t) ∧
    (LastCycle s → dataRead s ≠ memRead s.mem (perOffset s) → Finalized false true g s t) ∧
    (¬ LastCycle s →
      let n := s.reg.lenHi ++ s.reg.lenLo - 1#16
      Finalized false true { g with lenLo := n.extractLsb' 0 8, lenHi := n.extractLsb' 8 8 } s t)

/-- 44_dma_sequencer.md R203 to R206: autoload, COMMAND, the status bits, the interrupt condition, the release of the bus and
the restored slot; nothing else changes. -/
def Obligations.FinalizeReportsAndRestores : Prop :=
  ∀ (s : State) (eob ve : Bool), decode (.op8 0x61 (.status eob ve)) = .ok (.finalize eob ve) ∧
    ∃ t, exec (.finalize eob ve) s = .next t ∧ Finalized eob ve s.reg s t ∧
    t = { s with
      reg := t.reg
      irqOut := t.irqOut
      busReq := false
      addrDir := .input
      rwDir := .input
      dataDir := .input
      slot := s.savedSlot
      savedSlot := .none
      ret := .none }

/-- 44_dma_sequencer.md R190, 60_exceptions.md R225: a DMA cycle faults UNARMED without armed references, and with the clock
unclassified (41_phase_tracker.md R121, log entry 24), and CONTENTION, its `W` that of the pins (log entry 28), on the address
bus without bus ownership, the address latched and the wait made. -/
def Obligations.DmaNeedsReferencesAndOwnership : Prop :=
  ∀ (s : State) (i : Instr),
    i ∈ [Instr.dmaStash, .dmaFetch, .dmaSwap1, .dmaSwap2, .dmaVerify, .dmaVerifyErr] →
      let u := { waitUntil (startEdge s + s.ref.dmaHigh) (enterHandler s) with addrLatch := s.reg.hostHi ++ s.reg.hostLo }
      (s.ref.armed = false ∨ s.profile = .unclassified → exec i s = .fault (.unarmed .dmaCycle (enterHandler s))) ∧
      (refsReady s = true → s.inp.timing = none → s.busReq = false →
        exec i s = .fault (.contention .address (currentWord u) u)) ∧
      (refsReady s = true → s.inp.timing = none → s.busReq = false → s.addrDir = .input →
        exec i s = .fault (.contention .address (currentWord s) u))

/-- 44_dma_sequencer.md R195, R207, R210, 20_memory.md R75: a STASH of `N` bytes is `N` DMA cycles at consecutive host
addresses, the k-th byte read lies at the k-th peripheral address, no other byte changes, and the bus is owned until the last
cycle, which restores the saved handler with end of block set. -/
def Obligations.StashMovesBlock : Prop :=
  ∀ (s : State) (cs : List HostCycle) (rest : List Event),
    s.slot = .dma 0b000 → s.busReq = true → refsReady s = true → s.cycIrqEnable = true → s.dataDir = .input →
      s.env = cs.map .cycle ++ rest →
      (∀ c ∈ cs, c.timing = none) → 1 ≤ cs.length → (s.reg.lenHi ++ s.reg.lenLo).toNat = cs.length →
      s.reg.acr.getLsbD 7 = false → s.reg.acr.getLsbD 6 = false →
      (∃ t, steps cs.length s = .next t ∧ t.env = rest ∧ t.slot = s.savedSlot ∧ t.busReq = false ∧
        t.reg.status.getLsbD 6 = true ∧
        (∀ k (hk : k < cs.length), memRead t.mem ((perOffset s + k) % s.cfg.reuSize.bytes) = cs[k].data) ∧
        (∀ a, (∀ k, k < cs.length → a ≠ (perOffset s + k) % s.cfg.reuSize.bytes) →
          memRead t.mem a = memRead s.mem a)) ∧
      ∀ k, k < cs.length → ∃ u, steps (k + 1) s = .next u ∧
        u.obs.dmaAddr = some (s.reg.hostHi ++ s.reg.hostLo + BitVec.ofNat 16 k) ∧
        (u.busReq = true ↔ k + 1 < cs.length)

/-- 44_dma_sequencer.md R201: a mismatch on the last byte but one is reported one cycle later, with end of block if and only
if the last byte matches, and the length left at 1. -/
def Obligations.VerifyPenultimateMismatch : Prop :=
  ∀ (s : State) (next : BusIn), DmaReady s → next.timing = none → s.dataDir = .input → s.reg.lenHi ++ s.reg.lenLo = 2#16 →
    s.reg.command.getLsbD 5 = false → s.reg.status &&& 0x60 = 0 → s.reg.acr.getLsbD 6 = false →
    s.inp.data ≠ memRead s.mem (perOffset s) →
      ∃ t u, exec .dmaVerify s = .next t ∧ t.slot = .dma 0b111 ∧ t.reg.status = s.reg.status ∧
        exec .dmaVerifyErr { t with inp := next } = .next u ∧ u.slot = s.savedSlot ∧
        u.reg.status.getLsbD 5 = true ∧ u.reg.lenHi ++ u.reg.lenLo = 1#16 ∧
        (u.reg.status.getLsbD 6 = true ↔
          next.data = memRead s.mem ((perOffset s + 1) % s.cfg.reuSize.bytes))

/-! ### Invariants and whole-machine rules -/

/-- 10_state.md R21, R23, R28, 20_memory.md R61: every step keeps peripheral memory canonical and below REU_SIZE, timer and
capture within TIMER_BITS, `savedSlot` free of sequencer states, and the calibration offset in its range; and the parameters
never change. -/
def Obligations.StateInvariantKept : Prop :=
  ∀ s t : State, StateInvariant s → step s = .next t → StateInvariant t ∧ t.cfg = s.cfg

/-- 70_reset_and_hazards.md R242, R243, 10_state.md R49: the values POWER_ON gives, for all parameters and every launch
memory `mem0`, and both invariants. The reset state has the example parameters (log entry 1) and an empty one (log entry
4). That the calibration offset is in its range at power-on is log entry 3. -/
def Obligations.PowerOnState : Prop :=
  ∀ (cfg : Params) (mem0 : Mem), mem0.wf → (∀ c ∈ mem0, c.1 < cfg.reuSize.bytes) →
    let s := State.powerOn cfg mem0
    s.profile = .unclassified ∧ s.ref.armed = false ∧ s.led = false ∧ s.ifState = .idle ∧ s.cycIrqEnable = false ∧
      s.cycIrqPending = false ∧ s.slot = .none ∧ s.savedSlot = .none ∧ BusUntouched s ∧ StateInvariant s ∧
      BusInvariant s ∧ s.cfg = cfg ∧ s.mem = mem0 ∧ (cfg = Params.example → mem0 = [] → s = State.reset)

/-- 10_state.md R25, 41_phase_tracker.md R121, 44_dma_sequencer.md R207: every conforming step keeps the bus discipline. -/
def Obligations.BusInvariantKept : Prop :=
  ∀ s t : State, BusInvariant s → conforming (nextEvent s).1 = true → step s = .next t → BusInvariant t

/-- 60_exceptions.md R213, R223, 42_dispatch.md R147: with the bus discipline, an untimed host cycle never faults and is
never refused. -/
def Obligations.HostCyclesNeverStop : Prop :=
  ∀ (s : State) (c : HostCycle), BusInvariant s → (nextEvent s).1 = .cycle c → c.timing = none →
    ∃ t, step s = .next t

/-- 70_reset_and_hazards.md R256: where the bus request and the interrupt line may change in a conforming step. -/
def Obligations.OutputChangePoints : Prop :=
  ∀ (s t : State) (e : Event), (nextEvent s).1 = e → conforming e = true → step s = .next t →
    let cycle := ∃ c, e = .cycle c
    let disabling := ∃ w, e = .op w ∧ (decode w = .ok .disableInterface ∨
      ∃ mode offset, decode w = .ok (.enableInterface mode offset) ∧ s.ifState = .active)
    (s.busReq = false → t.busReq = true →
      cycle ∧ slotIsDma s.slot = false ∧ slotIsDma t.slot = true ∧ t.savedSlot = s.slot ∧ t.obs.data ≠ none) ∧
    (s.busReq = true → t.busReq = false →
      cycle ∧ slotIsDma s.slot = true ∧ t.slot = s.savedSlot ∧ t.obs.dmaAddr ≠ none ∨ disabling) ∧
    (s.irqOut = false → t.irqOut = true →
      cycle ∧ slotIsDma s.slot = true ∧ t.slot = s.savedSlot ∧ t.reg.status.getLsbD 7 = true) ∧
    (s.irqOut = true → t.irqOut = false →
      cycle ∧ slotIsDma s.slot = false ∧ t.obs.driven ≠ none ∧ t.reg.status &&& 0xE0 = 0 ∧
        (∃ w, t.obs.word = some w ∧ w &&& 0x3001F = 0x30000) ∨ disabling)

/-- 10_state.md R45, R49, R52, 41_phase_tracker.md R131: what a host cycle may write. No host cycle writes the references, the
profile or the mask; only a host write cycle writes the shadow; only STASH and SWAP2 cycles write peripheral memory; a status
flag is set only by the last cycle of a transfer and cleared only by an answered read. -/
def Obligations.HostCycleWriters : Prop :=
  ∀ (s t : State) (c : HostCycle), (nextEvent s).1 = .cycle c → step s = .next t →
    t.ref = s.ref ∧ t.profile = s.profile ∧ t.led = s.led ∧ t.ifState = s.ifState ∧ t.cycIrqEnable = s.cycIrqEnable ∧
    (t.shadow ≠ s.shadow → slotIsDma s.slot = false ∧ t.obs.data ≠ none) ∧
    (t.mem ≠ s.mem → s.slot = .dma 0b000 ∨ s.slot = .dma 0b110) ∧
    (∀ k, k = 5 ∨ k = 6 ∨ k = 7 → s.reg.status.getLsbD k = false → t.reg.status.getLsbD k = true →
      slotIsDma s.slot = true ∧ t.slot = s.savedSlot ∧ t.busReq = false) ∧
    (∀ k, s.reg.status.getLsbD k = true → t.reg.status.getLsbD k = false →
      slotIsDma s.slot = false ∧ t.obs.driven = some (s.reg.status ||| 0x10) ∧ t.irqOut = false)

/-- 60_exceptions.md R226, 10_state.md R55: a write by external code faults while the interrupt is enabled; while it is masked
it writes its one item, and a byte of memory it writes is read back with every other byte as before. A byte beyond
REU_SIZE faults and a `dma(_)` value for savedSlot is refused (log entry 19). The references are among the
items, and are written as ARM_REFS writes them (10_state.md R21, log entry 29). No bus is driven from both sides (log entry
27). -/
def Obligations.ExternalWritesNeedMask : Prop :=
  ∀ (s : State) (x : ExtWrite) (rest : List Event), contended s = none → s.env = .extWrite x :: rest →
    (s.cycIrqEnable = true → step s = .fault (.unmaskedMutation (itemOf x) { s with env := rest })) ∧
    (s.cycIrqEnable = false →
      (∀ v, x = .status v → step s = .next { s with env := rest, reg := { s.reg with status := v } }) ∧
      (∀ r v, x = .reg r v → ∃ t, step s = .next t ∧ t.reg.get r = v ∧ t.reg.status = s.reg.status ∧
        (∀ q, q ≠ r → t.reg.get q = s.reg.get q) ∧ t = { s with env := rest, reg := t.reg }) ∧
      (∀ r v, x = .shadow r v → ∃ t, step s = .next t ∧ t.shadow.get r = v ∧
        (∀ q, q ≠ r → t.shadow.get q = s.shadow.get q) ∧ t = { s with env := rest, shadow := t.shadow }) ∧
      (∀ p v, x = .mem p v → p < s.cfg.reuSize.bytes → ∃ t, step s = .next t ∧ memRead t.mem p = v ∧
        (∀ a, a ≠ p → memRead t.mem a = memRead s.mem a) ∧ t = { s with env := rest, mem := t.mem }) ∧
      (∀ p v, x = .mem p v → s.cfg.reuSize.bytes ≤ p → step s = .fault (.noSuchByte p { s with env := rest })) ∧
      (∀ h, x = .slot h → step s = .next { s with env := rest, slot := h }) ∧
      (∀ h, x = .savedSlot h → slotIsDma h = false → step s = .next { s with env := rest, savedSlot := h }) ∧
      (∀ code, x = .savedSlot (.dma code) → step s = .refused (.savedDma code)) ∧
      (∀ p b offset, x = .ref p offset → p = .a ∧ b = s.cfg.baseA ∨ p = .b ∧ b = s.cfg.baseB →
        s.profile ≠ .unclassified → -30 ≤ offset → offset ≤ 30 →
          step s = .next { s with
            env := rest
            ref := ⟨BitVec.ofInt 32 (b.dmaHigh + offset), BitVec.ofInt 32 (b.high + offset),
              BitVec.ofInt 32 (b.low + offset), offset, true⟩ }) ∧
      (∀ p offset, x = .ref p offset → p = .unclassified ∨ s.profile = .unclassified →
        step s = .fault (.unarmed .armRefs { s with env := rest })) ∧
      (∀ p offset, x = .ref p offset → p ≠ .unclassified → s.profile ≠ .unclassified → offset < -30 ∨ 30 < offset →
        step s = .fault (.badOffset offset { s with env := rest })))

/-- 60_exceptions.md R219, R222, 41_phase_tracker.md R128, 42_dispatch.md R149: a timed host cycle faults where it breaks a
timing condition, and one that keeps them all runs as the untimed cycle. Which cycles are timed, the order of the checks,
the targets recorded, and that a data bus still driven at a start edge is TIMING and CONTENTION in one fault are log entry
9; that a bus driven from both sides is found at the start edge, masked or not, and which of several is named, is log entry
27; the word is that of the pins (log entry 28), and the references are ready with the clock classified too (log entry
24). -/
def Obligations.TimedCycleFaults : Prop :=
  ∀ (s : State) (c : HostCycle) (tm : CycleTiming) (rest : List Event),
    s.env = .cycle c :: rest → c.timing = some tm → contended s = none →
    let began := latchCycle c { s with env := rest }
    let edge := startEdge began
    let next := edge + BitVec.ofNat 32 tm.period
    (∀ b, contended began = some b → step s = .fault (.contention b (currentWord began) began)) ∧
    (contended began = none → s.dataDir = .output →
      step s = .fault (.stillDriven edge edge (currentWord began) began)) ∧
    (edgeContention began = none → s.cycIrqEnable = true →
      (s.cycIrqPending = true → step s = .fault (.timing .missedCycle edge edge began)) ∧
      (s.cycIrqPending = false → tm.period ≤ c.latency → step s = .fault (.timing .missedCycle edge next began)) ∧
      (s.cycIrqPending = false → c.latency < tm.period → refsReady s = true → Installed s.slot →
        (¬ InWindow s tm (firstRef s) c.latency →
          step s = .fault (.timing .waitWindow edge (edge + firstRef s) (enterHandler began))) ∧
        (InWindow s tm (firstRef s) c.latency →
          ∀ t, step { s with env := .cycle { c with timing := none } :: rest } = .next t →
            (∀ r, SecondRef s t r → ¬ InWindow s tm r tm.second → ∃ u,
              step s = .fault (.timing .waitWindow edge (edge + r) u) ∧ (t.obs.driven ≠ none → u.dataDir = .output)) ∧
            (t.obs.driven ≠ none → InWindow s tm s.ref.low tm.second → tm.period ≤ tm.release →
              ∃ u, u.dataDir = .output ∧ step s = .fault (.stillDriven edge next (currentWord u) u)) ∧
            (SecondOnTime s t tm → tm.period + s.ref.high.toNat ≤ tm.done →
              step s = .fault (.timing .overrun edge (next + s.ref.high) { t with inp := began.inp })) ∧
            (SecondOnTime s t tm → tm.done < tm.period + s.ref.high.toNat →
              step s = .next { t with inp := began.inp }))))
end

