-- ==== Sys2Proof/Laws/Memory.lean ====
section
/-! SUPPORT. Peripheral memory: read after write, and that a write keeps the canonical form and the address bound. -/

namespace Sys2Proof.Machine

theorem memRead_memErase_same (m : Mem) (p : Nat) : memRead (memErase m p) p = Config.unlistedByte := by
  induction m with
  | nil => rfl
  | cons c m ih =>
    by_cases h : c.1 = p
    · simpa [memErase, h] using ih
    · simpa [memErase, h, memRead] using ih

theorem memRead_memErase_other (m : Mem) {p a : Nat} (h : a ≠ p) : memRead (memErase m p) a = memRead m a := by
  induction m with
  | nil => rfl
  | cons c m ih =>
    by_cases hc : c.1 = p
    · have : c.1 ≠ a := fun e => h (e.symm.trans hc)
      simpa [memErase, hc, memRead, this, Ne.symm h] using ih
    · simp only [memErase] at ih
      simp [memErase, hc, memRead, ih]

theorem memRead_memInsert_same (m : Mem) (p : Nat) (v : Byte) : memRead (memInsert m p v) p = v := by
  induction m with
  | nil => simp [memInsert, memRead]
  | cons c m ih =>
    unfold memInsert
    split
    · simp [memRead]
    · split
      · simp [memRead]
      · rename_i h
        simpa [memRead, Ne.symm h] using ih

theorem memRead_memInsert_other (m : Mem) {p a : Nat} (v : Byte) (h : a ≠ p) :
    memRead (memInsert m p v) a = memRead m a := by
  induction m with
  | nil => simp [memInsert, memRead, Ne.symm h]
  | cons c m ih =>
    unfold memInsert
    split
    · simp [memRead, Ne.symm h]
    · split
      · rename_i e
        have : c.1 ≠ a := fun x => h (x.symm.trans e.symm)
        simp [memRead, Ne.symm h, this]
      · simp [memRead, ih]

/-- A read gives the byte last written. -/
@[simp] theorem memRead_memWrite_same (m : Mem) (p : Nat) (v : Byte) : memRead (memWrite m p v) p = v := by
  unfold memWrite
  split
  · rename_i h; rw [memRead_memErase_same, h]
  · exact memRead_memInsert_same m p v

/-- A write leaves every other byte alone. -/
theorem memRead_memWrite_other (m : Mem) {p a : Nat} (v : Byte) (h : a ≠ p) :
    memRead (memWrite m p v) a = memRead m a := by
  unfold memWrite
  split
  · exact memRead_memErase_other m h
  · exact memRead_memInsert_other m v h

/-- The entries of a written memory: the new one, or entries that were there. -/
theorem mem_memInsert {m : Mem} {p : Nat} {v : Byte} {c : Host.Cell} (h : c ∈ memInsert m p v) :
    c = (p, v) ∨ c ∈ m := by
  induction m with
  | nil => simpa [memInsert] using h
  | cons d m ih =>
    unfold memInsert at h
    split at h
    · simpa using h
    · split at h
      · rcases List.mem_cons.1 h with h | h
        · exact .inl h
        · exact .inr (List.mem_cons_of_mem _ h)
      · rcases List.mem_cons.1 h with h | h
        · exact .inr (h ▸ List.mem_cons_self)
        · exact (ih h).imp_right (List.mem_cons_of_mem _)

theorem memInsert_sorted {m : Mem} {p : Nat} {v : Byte} (h : m.Pairwise (fun x y => x.1 < y.1)) :
    (memInsert m p v).Pairwise (fun x y => x.1 < y.1) := by
  induction m with
  | nil => simp [memInsert]
  | cons d m ih =>
    obtain ⟨hd, hm⟩ := List.pairwise_cons.1 h
    unfold memInsert
    split
    · rename_i hp
      refine List.pairwise_cons.2 ⟨fun c hc => ?_, h⟩
      rcases List.mem_cons.1 hc with rfl | hc
      · exact hp
      · exact Nat.lt_trans hp (hd c hc)
    · split
      · rename_i e
        exact List.pairwise_cons.2 ⟨fun c hc => by simpa [e] using hd c hc, hm⟩
      · rename_i h1 h2
        refine List.pairwise_cons.2 ⟨fun c hc => ?_, ih hm⟩
        rcases mem_memInsert hc with rfl | hc
        · show d.1 < p
          omega
        · exact hd c hc

/-- A write keeps the canonical form. -/
theorem memWrite_wf {m : Mem} (p : Nat) (v : Byte) (h : m.wf) : (memWrite m p v).wf := by
  unfold memWrite
  split
  · exact ⟨h.1.filter _, fun c hc => h.2 c (List.mem_filter.1 hc).1⟩
  · rename_i hv
    refine ⟨memInsert_sorted h.1, fun c hc => ?_⟩
    rcases mem_memInsert hc with rfl | hc
    · exact hv
    · exact h.2 c hc

/-- A write below a bound keeps every listed offset below it. -/
theorem memWrite_bounded {m : Mem} {p n : Nat} (v : Byte) (hp : p < n) (h : ∀ c ∈ m, c.1 < n) :
    ∀ c ∈ memWrite m p v, c.1 < n := by
  intro c hc
  unfold memWrite at hc
  split at hc
  · exact h c (List.mem_filter.1 hc).1
  · rcases mem_memInsert hc with rfl | hc
    · exact hp
    · exact h c hc

/-- The masked peripheral address lies in peripheral memory (10_state.md R51). -/
theorem perAddr_lt (f : RegFile) (size : ReuSize) : (f.perAddr size).toNat < size.bytes := by
  unfold RegFile.perAddr
  rw [BitVec.toNat_and]
  refine Nat.lt_of_le_of_lt Nat.and_le_right ?_
  cases size <;> decide

theorem powerOn_mem_wf (cfg : Params) {mem0 : Mem} (h : mem0.wf) : (State.powerOn cfg mem0).mem.wf := h

theorem reset_mem_wf : State.reset.mem.wf := powerOn_mem_wf Params.example (by simp [Mem.wf])

end Sys2Proof.Machine
end

