-- ==== Sys2Proof/Laws/State.lean ====
section
/-! SUPPORT. One lemma per field per named update of State, so that no proof unfolds a record update. -/

namespace Sys2Proof.Machine

@[simp] theorem setRet_cfg (s : State) (r : Ret) : (s.setRet r).cfg = s.cfg := rfl
@[simp] theorem setRet_profile (s : State) (r : Ret) : (s.setRet r).profile = s.profile := rfl
@[simp] theorem setRet_ref (s : State) (r : Ret) : (s.setRet r).ref = s.ref := rfl
@[simp] theorem setRet_cnt (s : State) (r : Ret) : (s.setRet r).cnt = s.cnt := rfl
@[simp] theorem setRet_timer (s : State) (r : Ret) : (s.setRet r).timer = s.timer := rfl
@[simp] theorem setRet_cap (s : State) (r : Ret) : (s.setRet r).cap = s.cap := rfl
@[simp] theorem setRet_led (s : State) (r : Ret) : (s.setRet r).led = s.led := rfl
@[simp] theorem setRet_ifState (s : State) (r : Ret) : (s.setRet r).ifState = s.ifState := rfl
@[simp] theorem setRet_cycIrqEnable (s : State) (r : Ret) : (s.setRet r).cycIrqEnable = s.cycIrqEnable := rfl
@[simp] theorem setRet_cycIrqPending (s : State) (r : Ret) : (s.setRet r).cycIrqPending = s.cycIrqPending := rfl
@[simp] theorem setRet_slot (s : State) (r : Ret) : (s.setRet r).slot = s.slot := rfl
@[simp] theorem setRet_savedSlot (s : State) (r : Ret) : (s.setRet r).savedSlot = s.savedSlot := rfl
@[simp] theorem setRet_addrDir (s : State) (r : Ret) : (s.setRet r).addrDir = s.addrDir := rfl
@[simp] theorem setRet_addrLatch (s : State) (r : Ret) : (s.setRet r).addrLatch = s.addrLatch := rfl
@[simp] theorem setRet_dataDir (s : State) (r : Ret) : (s.setRet r).dataDir = s.dataDir := rfl
@[simp] theorem setRet_dataLatch (s : State) (r : Ret) : (s.setRet r).dataLatch = s.dataLatch := rfl
@[simp] theorem setRet_rwDir (s : State) (r : Ret) : (s.setRet r).rwDir = s.rwDir := rfl
@[simp] theorem setRet_rwLatch (s : State) (r : Ret) : (s.setRet r).rwLatch = s.rwLatch := rfl
@[simp] theorem setRet_busReq (s : State) (r : Ret) : (s.setRet r).busReq = s.busReq := rfl
@[simp] theorem setRet_irqOut (s : State) (r : Ret) : (s.setRet r).irqOut = s.irqOut := rfl
@[simp] theorem setRet_cartLines (s : State) (r : Ret) : (s.setRet r).cartLines = s.cartLines := rfl
@[simp] theorem setRet_reg (s : State) (r : Ret) : (s.setRet r).reg = s.reg := rfl
@[simp] theorem setRet_shadow (s : State) (r : Ret) : (s.setRet r).shadow = s.shadow := rfl
@[simp] theorem setRet_mem (s : State) (r : Ret) : (s.setRet r).mem = s.mem := rfl
@[simp] theorem setRet_swapLatch (s : State) (r : Ret) : (s.setRet r).swapLatch = s.swapLatch := rfl
@[simp] theorem setRet_regionModified (s : State) (r : Ret) : (s.setRet r).regionModified = s.regionModified := rfl
@[simp] theorem setRet_cart (s : State) (r : Ret) : (s.setRet r).cart = s.cart := rfl
@[simp] theorem setRet_inp (s : State) (r : Ret) : (s.setRet r).inp = s.inp := rfl
@[simp] theorem setRet_env (s : State) (r : Ret) : (s.setRet r).env = s.env := rfl
@[simp] theorem setRet_intervals (s : State) (r : Ret) : (s.setRet r).intervals = s.intervals := rfl
@[simp] theorem setRet_freeIdx (s : State) (r : Ret) : (s.setRet r).freeIdx = s.freeIdx := rfl
@[simp] theorem setRet_ret (s : State) (r : Ret) : (s.setRet r).ret = r := rfl
@[simp] theorem setRet_obs (s : State) (r : Ret) : (s.setRet r).obs = s.obs := rfl

@[simp] theorem addrDrive_cfg (s : State) (a : Addr) : (addrDrive a s).cfg = s.cfg := rfl
@[simp] theorem addrDrive_profile (s : State) (a : Addr) : (addrDrive a s).profile = s.profile := rfl
@[simp] theorem addrDrive_ref (s : State) (a : Addr) : (addrDrive a s).ref = s.ref := rfl
@[simp] theorem addrDrive_cnt (s : State) (a : Addr) : (addrDrive a s).cnt = s.cnt := rfl
@[simp] theorem addrDrive_timer (s : State) (a : Addr) : (addrDrive a s).timer = s.timer := rfl
@[simp] theorem addrDrive_cap (s : State) (a : Addr) : (addrDrive a s).cap = s.cap := rfl
@[simp] theorem addrDrive_led (s : State) (a : Addr) : (addrDrive a s).led = s.led := rfl
@[simp] theorem addrDrive_ifState (s : State) (a : Addr) : (addrDrive a s).ifState = s.ifState := rfl
@[simp] theorem addrDrive_cycIrqEnable (s : State) (a : Addr) : (addrDrive a s).cycIrqEnable = s.cycIrqEnable := rfl
@[simp] theorem addrDrive_cycIrqPending (s : State) (a : Addr) : (addrDrive a s).cycIrqPending = s.cycIrqPending := rfl
@[simp] theorem addrDrive_slot (s : State) (a : Addr) : (addrDrive a s).slot = s.slot := rfl
@[simp] theorem addrDrive_savedSlot (s : State) (a : Addr) : (addrDrive a s).savedSlot = s.savedSlot := rfl
@[simp] theorem addrDrive_addrDir (s : State) (a : Addr) : (addrDrive a s).addrDir = s.addrDir := rfl
@[simp] theorem addrDrive_addrLatch (s : State) (a : Addr) : (addrDrive a s).addrLatch = a := rfl
@[simp] theorem addrDrive_dataDir (s : State) (a : Addr) : (addrDrive a s).dataDir = s.dataDir := rfl
@[simp] theorem addrDrive_dataLatch (s : State) (a : Addr) : (addrDrive a s).dataLatch = s.dataLatch := rfl
@[simp] theorem addrDrive_rwDir (s : State) (a : Addr) : (addrDrive a s).rwDir = s.rwDir := rfl
@[simp] theorem addrDrive_rwLatch (s : State) (a : Addr) : (addrDrive a s).rwLatch = s.rwLatch := rfl
@[simp] theorem addrDrive_busReq (s : State) (a : Addr) : (addrDrive a s).busReq = s.busReq := rfl
@[simp] theorem addrDrive_irqOut (s : State) (a : Addr) : (addrDrive a s).irqOut = s.irqOut := rfl
@[simp] theorem addrDrive_cartLines (s : State) (a : Addr) : (addrDrive a s).cartLines = s.cartLines := rfl
@[simp] theorem addrDrive_reg (s : State) (a : Addr) : (addrDrive a s).reg = s.reg := rfl
@[simp] theorem addrDrive_shadow (s : State) (a : Addr) : (addrDrive a s).shadow = s.shadow := rfl
@[simp] theorem addrDrive_mem (s : State) (a : Addr) : (addrDrive a s).mem = s.mem := rfl
@[simp] theorem addrDrive_swapLatch (s : State) (a : Addr) : (addrDrive a s).swapLatch = s.swapLatch := rfl
@[simp] theorem addrDrive_regionModified (s : State) (a : Addr) : (addrDrive a s).regionModified = s.regionModified := rfl
@[simp] theorem addrDrive_cart (s : State) (a : Addr) : (addrDrive a s).cart = s.cart := rfl
@[simp] theorem addrDrive_inp (s : State) (a : Addr) : (addrDrive a s).inp = s.inp := rfl
@[simp] theorem addrDrive_env (s : State) (a : Addr) : (addrDrive a s).env = s.env := rfl
@[simp] theorem addrDrive_intervals (s : State) (a : Addr) : (addrDrive a s).intervals = s.intervals := rfl
@[simp] theorem addrDrive_freeIdx (s : State) (a : Addr) : (addrDrive a s).freeIdx = s.freeIdx := rfl
@[simp] theorem addrDrive_ret (s : State) (a : Addr) : (addrDrive a s).ret = s.ret := rfl
@[simp] theorem addrDrive_obs (s : State) (a : Addr) : (addrDrive a s).obs = s.obs := rfl

@[simp] theorem addrDirIn_cfg (s : State) : (addrDirIn s).cfg = s.cfg := rfl
@[simp] theorem addrDirIn_profile (s : State) : (addrDirIn s).profile = s.profile := rfl
@[simp] theorem addrDirIn_ref (s : State) : (addrDirIn s).ref = s.ref := rfl
@[simp] theorem addrDirIn_cnt (s : State) : (addrDirIn s).cnt = s.cnt := rfl
@[simp] theorem addrDirIn_timer (s : State) : (addrDirIn s).timer = s.timer := rfl
@[simp] theorem addrDirIn_cap (s : State) : (addrDirIn s).cap = s.cap := rfl
@[simp] theorem addrDirIn_led (s : State) : (addrDirIn s).led = s.led := rfl
@[simp] theorem addrDirIn_ifState (s : State) : (addrDirIn s).ifState = s.ifState := rfl
@[simp] theorem addrDirIn_cycIrqEnable (s : State) : (addrDirIn s).cycIrqEnable = s.cycIrqEnable := rfl
@[simp] theorem addrDirIn_cycIrqPending (s : State) : (addrDirIn s).cycIrqPending = s.cycIrqPending := rfl
@[simp] theorem addrDirIn_slot (s : State) : (addrDirIn s).slot = s.slot := rfl
@[simp] theorem addrDirIn_savedSlot (s : State) : (addrDirIn s).savedSlot = s.savedSlot := rfl
@[simp] theorem addrDirIn_addrDir (s : State) : (addrDirIn s).addrDir = .input := rfl
@[simp] theorem addrDirIn_addrLatch (s : State) : (addrDirIn s).addrLatch = s.addrLatch := rfl
@[simp] theorem addrDirIn_dataDir (s : State) : (addrDirIn s).dataDir = s.dataDir := rfl
@[simp] theorem addrDirIn_dataLatch (s : State) : (addrDirIn s).dataLatch = s.dataLatch := rfl
@[simp] theorem addrDirIn_rwDir (s : State) : (addrDirIn s).rwDir = s.rwDir := rfl
@[simp] theorem addrDirIn_rwLatch (s : State) : (addrDirIn s).rwLatch = s.rwLatch := rfl
@[simp] theorem addrDirIn_busReq (s : State) : (addrDirIn s).busReq = s.busReq := rfl
@[simp] theorem addrDirIn_irqOut (s : State) : (addrDirIn s).irqOut = s.irqOut := rfl
@[simp] theorem addrDirIn_cartLines (s : State) : (addrDirIn s).cartLines = s.cartLines := rfl
@[simp] theorem addrDirIn_reg (s : State) : (addrDirIn s).reg = s.reg := rfl
@[simp] theorem addrDirIn_shadow (s : State) : (addrDirIn s).shadow = s.shadow := rfl
@[simp] theorem addrDirIn_mem (s : State) : (addrDirIn s).mem = s.mem := rfl
@[simp] theorem addrDirIn_swapLatch (s : State) : (addrDirIn s).swapLatch = s.swapLatch := rfl
@[simp] theorem addrDirIn_regionModified (s : State) : (addrDirIn s).regionModified = s.regionModified := rfl
@[simp] theorem addrDirIn_cart (s : State) : (addrDirIn s).cart = s.cart := rfl
@[simp] theorem addrDirIn_inp (s : State) : (addrDirIn s).inp = s.inp := rfl
@[simp] theorem addrDirIn_env (s : State) : (addrDirIn s).env = s.env := rfl
@[simp] theorem addrDirIn_intervals (s : State) : (addrDirIn s).intervals = s.intervals := rfl
@[simp] theorem addrDirIn_freeIdx (s : State) : (addrDirIn s).freeIdx = s.freeIdx := rfl
@[simp] theorem addrDirIn_ret (s : State) : (addrDirIn s).ret = s.ret := rfl
@[simp] theorem addrDirIn_obs (s : State) : (addrDirIn s).obs = s.obs := rfl

@[simp] theorem dataDrive_cfg (s : State) (v : Byte) : (dataDrive v s).cfg = s.cfg := rfl
@[simp] theorem dataDrive_profile (s : State) (v : Byte) : (dataDrive v s).profile = s.profile := rfl
@[simp] theorem dataDrive_ref (s : State) (v : Byte) : (dataDrive v s).ref = s.ref := rfl
@[simp] theorem dataDrive_cnt (s : State) (v : Byte) : (dataDrive v s).cnt = s.cnt := rfl
@[simp] theorem dataDrive_timer (s : State) (v : Byte) : (dataDrive v s).timer = s.timer := rfl
@[simp] theorem dataDrive_cap (s : State) (v : Byte) : (dataDrive v s).cap = s.cap := rfl
@[simp] theorem dataDrive_led (s : State) (v : Byte) : (dataDrive v s).led = s.led := rfl
@[simp] theorem dataDrive_ifState (s : State) (v : Byte) : (dataDrive v s).ifState = s.ifState := rfl
@[simp] theorem dataDrive_cycIrqEnable (s : State) (v : Byte) : (dataDrive v s).cycIrqEnable = s.cycIrqEnable := rfl
@[simp] theorem dataDrive_cycIrqPending (s : State) (v : Byte) : (dataDrive v s).cycIrqPending = s.cycIrqPending := rfl
@[simp] theorem dataDrive_slot (s : State) (v : Byte) : (dataDrive v s).slot = s.slot := rfl
@[simp] theorem dataDrive_savedSlot (s : State) (v : Byte) : (dataDrive v s).savedSlot = s.savedSlot := rfl
@[simp] theorem dataDrive_addrDir (s : State) (v : Byte) : (dataDrive v s).addrDir = s.addrDir := rfl
@[simp] theorem dataDrive_addrLatch (s : State) (v : Byte) : (dataDrive v s).addrLatch = s.addrLatch := rfl
@[simp] theorem dataDrive_dataDir (s : State) (v : Byte) : (dataDrive v s).dataDir = s.dataDir := rfl
@[simp] theorem dataDrive_dataLatch (s : State) (v : Byte) : (dataDrive v s).dataLatch = v := rfl
@[simp] theorem dataDrive_rwDir (s : State) (v : Byte) : (dataDrive v s).rwDir = s.rwDir := rfl
@[simp] theorem dataDrive_rwLatch (s : State) (v : Byte) : (dataDrive v s).rwLatch = s.rwLatch := rfl
@[simp] theorem dataDrive_busReq (s : State) (v : Byte) : (dataDrive v s).busReq = s.busReq := rfl
@[simp] theorem dataDrive_irqOut (s : State) (v : Byte) : (dataDrive v s).irqOut = s.irqOut := rfl
@[simp] theorem dataDrive_cartLines (s : State) (v : Byte) : (dataDrive v s).cartLines = s.cartLines := rfl
@[simp] theorem dataDrive_reg (s : State) (v : Byte) : (dataDrive v s).reg = s.reg := rfl
@[simp] theorem dataDrive_shadow (s : State) (v : Byte) : (dataDrive v s).shadow = s.shadow := rfl
@[simp] theorem dataDrive_mem (s : State) (v : Byte) : (dataDrive v s).mem = s.mem := rfl
@[simp] theorem dataDrive_swapLatch (s : State) (v : Byte) : (dataDrive v s).swapLatch = s.swapLatch := rfl
@[simp] theorem dataDrive_regionModified (s : State) (v : Byte) : (dataDrive v s).regionModified = s.regionModified := rfl
@[simp] theorem dataDrive_cart (s : State) (v : Byte) : (dataDrive v s).cart = s.cart := rfl
@[simp] theorem dataDrive_inp (s : State) (v : Byte) : (dataDrive v s).inp = s.inp := rfl
@[simp] theorem dataDrive_env (s : State) (v : Byte) : (dataDrive v s).env = s.env := rfl
@[simp] theorem dataDrive_intervals (s : State) (v : Byte) : (dataDrive v s).intervals = s.intervals := rfl
@[simp] theorem dataDrive_freeIdx (s : State) (v : Byte) : (dataDrive v s).freeIdx = s.freeIdx := rfl
@[simp] theorem dataDrive_ret (s : State) (v : Byte) : (dataDrive v s).ret = s.ret := rfl
@[simp] theorem dataDrive_obs (s : State) (v : Byte) : (dataDrive v s).obs = s.obs := rfl

@[simp] theorem dataDirIn_cfg (s : State) : (dataDirIn s).cfg = s.cfg := rfl
@[simp] theorem dataDirIn_profile (s : State) : (dataDirIn s).profile = s.profile := rfl
@[simp] theorem dataDirIn_ref (s : State) : (dataDirIn s).ref = s.ref := rfl
@[simp] theorem dataDirIn_cnt (s : State) : (dataDirIn s).cnt = s.cnt := rfl
@[simp] theorem dataDirIn_timer (s : State) : (dataDirIn s).timer = s.timer := rfl
@[simp] theorem dataDirIn_cap (s : State) : (dataDirIn s).cap = s.cap := rfl
@[simp] theorem dataDirIn_led (s : State) : (dataDirIn s).led = s.led := rfl
@[simp] theorem dataDirIn_ifState (s : State) : (dataDirIn s).ifState = s.ifState := rfl
@[simp] theorem dataDirIn_cycIrqEnable (s : State) : (dataDirIn s).cycIrqEnable = s.cycIrqEnable := rfl
@[simp] theorem dataDirIn_cycIrqPending (s : State) : (dataDirIn s).cycIrqPending = s.cycIrqPending := rfl
@[simp] theorem dataDirIn_slot (s : State) : (dataDirIn s).slot = s.slot := rfl
@[simp] theorem dataDirIn_savedSlot (s : State) : (dataDirIn s).savedSlot = s.savedSlot := rfl
@[simp] theorem dataDirIn_addrDir (s : State) : (dataDirIn s).addrDir = s.addrDir := rfl
@[simp] theorem dataDirIn_addrLatch (s : State) : (dataDirIn s).addrLatch = s.addrLatch := rfl
@[simp] theorem dataDirIn_dataDir (s : State) : (dataDirIn s).dataDir = .input := rfl
@[simp] theorem dataDirIn_dataLatch (s : State) : (dataDirIn s).dataLatch = s.dataLatch := rfl
@[simp] theorem dataDirIn_rwDir (s : State) : (dataDirIn s).rwDir = s.rwDir := rfl
@[simp] theorem dataDirIn_rwLatch (s : State) : (dataDirIn s).rwLatch = s.rwLatch := rfl
@[simp] theorem dataDirIn_busReq (s : State) : (dataDirIn s).busReq = s.busReq := rfl
@[simp] theorem dataDirIn_irqOut (s : State) : (dataDirIn s).irqOut = s.irqOut := rfl
@[simp] theorem dataDirIn_cartLines (s : State) : (dataDirIn s).cartLines = s.cartLines := rfl
@[simp] theorem dataDirIn_reg (s : State) : (dataDirIn s).reg = s.reg := rfl
@[simp] theorem dataDirIn_shadow (s : State) : (dataDirIn s).shadow = s.shadow := rfl
@[simp] theorem dataDirIn_mem (s : State) : (dataDirIn s).mem = s.mem := rfl
@[simp] theorem dataDirIn_swapLatch (s : State) : (dataDirIn s).swapLatch = s.swapLatch := rfl
@[simp] theorem dataDirIn_regionModified (s : State) : (dataDirIn s).regionModified = s.regionModified := rfl
@[simp] theorem dataDirIn_cart (s : State) : (dataDirIn s).cart = s.cart := rfl
@[simp] theorem dataDirIn_inp (s : State) : (dataDirIn s).inp = s.inp := rfl
@[simp] theorem dataDirIn_env (s : State) : (dataDirIn s).env = s.env := rfl
@[simp] theorem dataDirIn_intervals (s : State) : (dataDirIn s).intervals = s.intervals := rfl
@[simp] theorem dataDirIn_freeIdx (s : State) : (dataDirIn s).freeIdx = s.freeIdx := rfl
@[simp] theorem dataDirIn_ret (s : State) : (dataDirIn s).ret = s.ret := rfl
@[simp] theorem dataDirIn_obs (s : State) : (dataDirIn s).obs = s.obs := rfl

@[simp] theorem rwRelease_cfg (s : State) : (rwRelease s).cfg = s.cfg := rfl
@[simp] theorem rwRelease_profile (s : State) : (rwRelease s).profile = s.profile := rfl
@[simp] theorem rwRelease_ref (s : State) : (rwRelease s).ref = s.ref := rfl
@[simp] theorem rwRelease_cnt (s : State) : (rwRelease s).cnt = s.cnt := rfl
@[simp] theorem rwRelease_timer (s : State) : (rwRelease s).timer = s.timer := rfl
@[simp] theorem rwRelease_cap (s : State) : (rwRelease s).cap = s.cap := rfl
@[simp] theorem rwRelease_led (s : State) : (rwRelease s).led = s.led := rfl
@[simp] theorem rwRelease_ifState (s : State) : (rwRelease s).ifState = s.ifState := rfl
@[simp] theorem rwRelease_cycIrqEnable (s : State) : (rwRelease s).cycIrqEnable = s.cycIrqEnable := rfl
@[simp] theorem rwRelease_cycIrqPending (s : State) : (rwRelease s).cycIrqPending = s.cycIrqPending := rfl
@[simp] theorem rwRelease_slot (s : State) : (rwRelease s).slot = s.slot := rfl
@[simp] theorem rwRelease_savedSlot (s : State) : (rwRelease s).savedSlot = s.savedSlot := rfl
@[simp] theorem rwRelease_addrDir (s : State) : (rwRelease s).addrDir = s.addrDir := rfl
@[simp] theorem rwRelease_addrLatch (s : State) : (rwRelease s).addrLatch = s.addrLatch := rfl
@[simp] theorem rwRelease_dataDir (s : State) : (rwRelease s).dataDir = s.dataDir := rfl
@[simp] theorem rwRelease_dataLatch (s : State) : (rwRelease s).dataLatch = s.dataLatch := rfl
@[simp] theorem rwRelease_rwDir (s : State) : (rwRelease s).rwDir = .input := rfl
@[simp] theorem rwRelease_rwLatch (s : State) : (rwRelease s).rwLatch = s.rwLatch := rfl
@[simp] theorem rwRelease_busReq (s : State) : (rwRelease s).busReq = s.busReq := rfl
@[simp] theorem rwRelease_irqOut (s : State) : (rwRelease s).irqOut = s.irqOut := rfl
@[simp] theorem rwRelease_cartLines (s : State) : (rwRelease s).cartLines = s.cartLines := rfl
@[simp] theorem rwRelease_reg (s : State) : (rwRelease s).reg = s.reg := rfl
@[simp] theorem rwRelease_shadow (s : State) : (rwRelease s).shadow = s.shadow := rfl
@[simp] theorem rwRelease_mem (s : State) : (rwRelease s).mem = s.mem := rfl
@[simp] theorem rwRelease_swapLatch (s : State) : (rwRelease s).swapLatch = s.swapLatch := rfl
@[simp] theorem rwRelease_regionModified (s : State) : (rwRelease s).regionModified = s.regionModified := rfl
@[simp] theorem rwRelease_cart (s : State) : (rwRelease s).cart = s.cart := rfl
@[simp] theorem rwRelease_inp (s : State) : (rwRelease s).inp = s.inp := rfl
@[simp] theorem rwRelease_env (s : State) : (rwRelease s).env = s.env := rfl
@[simp] theorem rwRelease_intervals (s : State) : (rwRelease s).intervals = s.intervals := rfl
@[simp] theorem rwRelease_freeIdx (s : State) : (rwRelease s).freeIdx = s.freeIdx := rfl
@[simp] theorem rwRelease_ret (s : State) : (rwRelease s).ret = s.ret := rfl
@[simp] theorem rwRelease_obs (s : State) : (rwRelease s).obs = s.obs := rfl

@[simp] theorem busreqSet_cfg (s : State) (b : Bool) : (busreqSet b s).cfg = s.cfg := rfl
@[simp] theorem busreqSet_profile (s : State) (b : Bool) : (busreqSet b s).profile = s.profile := rfl
@[simp] theorem busreqSet_ref (s : State) (b : Bool) : (busreqSet b s).ref = s.ref := rfl
@[simp] theorem busreqSet_cnt (s : State) (b : Bool) : (busreqSet b s).cnt = s.cnt := rfl
@[simp] theorem busreqSet_timer (s : State) (b : Bool) : (busreqSet b s).timer = s.timer := rfl
@[simp] theorem busreqSet_cap (s : State) (b : Bool) : (busreqSet b s).cap = s.cap := rfl
@[simp] theorem busreqSet_led (s : State) (b : Bool) : (busreqSet b s).led = s.led := rfl
@[simp] theorem busreqSet_ifState (s : State) (b : Bool) : (busreqSet b s).ifState = s.ifState := rfl
@[simp] theorem busreqSet_cycIrqEnable (s : State) (b : Bool) : (busreqSet b s).cycIrqEnable = s.cycIrqEnable := rfl
@[simp] theorem busreqSet_cycIrqPending (s : State) (b : Bool) : (busreqSet b s).cycIrqPending = s.cycIrqPending := rfl
@[simp] theorem busreqSet_slot (s : State) (b : Bool) : (busreqSet b s).slot = s.slot := rfl
@[simp] theorem busreqSet_savedSlot (s : State) (b : Bool) : (busreqSet b s).savedSlot = s.savedSlot := rfl
@[simp] theorem busreqSet_addrDir (s : State) (b : Bool) : (busreqSet b s).addrDir = s.addrDir := rfl
@[simp] theorem busreqSet_addrLatch (s : State) (b : Bool) : (busreqSet b s).addrLatch = s.addrLatch := rfl
@[simp] theorem busreqSet_dataDir (s : State) (b : Bool) : (busreqSet b s).dataDir = s.dataDir := rfl
@[simp] theorem busreqSet_dataLatch (s : State) (b : Bool) : (busreqSet b s).dataLatch = s.dataLatch := rfl
@[simp] theorem busreqSet_rwDir (s : State) (b : Bool) : (busreqSet b s).rwDir = s.rwDir := rfl
@[simp] theorem busreqSet_rwLatch (s : State) (b : Bool) : (busreqSet b s).rwLatch = s.rwLatch := rfl
@[simp] theorem busreqSet_busReq (s : State) (b : Bool) : (busreqSet b s).busReq = b := rfl
@[simp] theorem busreqSet_irqOut (s : State) (b : Bool) : (busreqSet b s).irqOut = s.irqOut := rfl
@[simp] theorem busreqSet_cartLines (s : State) (b : Bool) : (busreqSet b s).cartLines = s.cartLines := rfl
@[simp] theorem busreqSet_reg (s : State) (b : Bool) : (busreqSet b s).reg = s.reg := rfl
@[simp] theorem busreqSet_shadow (s : State) (b : Bool) : (busreqSet b s).shadow = s.shadow := rfl
@[simp] theorem busreqSet_mem (s : State) (b : Bool) : (busreqSet b s).mem = s.mem := rfl
@[simp] theorem busreqSet_swapLatch (s : State) (b : Bool) : (busreqSet b s).swapLatch = s.swapLatch := rfl
@[simp] theorem busreqSet_regionModified (s : State) (b : Bool) : (busreqSet b s).regionModified = s.regionModified := rfl
@[simp] theorem busreqSet_cart (s : State) (b : Bool) : (busreqSet b s).cart = s.cart := rfl
@[simp] theorem busreqSet_inp (s : State) (b : Bool) : (busreqSet b s).inp = s.inp := rfl
@[simp] theorem busreqSet_env (s : State) (b : Bool) : (busreqSet b s).env = s.env := rfl
@[simp] theorem busreqSet_intervals (s : State) (b : Bool) : (busreqSet b s).intervals = s.intervals := rfl
@[simp] theorem busreqSet_freeIdx (s : State) (b : Bool) : (busreqSet b s).freeIdx = s.freeIdx := rfl
@[simp] theorem busreqSet_ret (s : State) (b : Bool) : (busreqSet b s).ret = s.ret := rfl
@[simp] theorem busreqSet_obs (s : State) (b : Bool) : (busreqSet b s).obs = s.obs := rfl

@[simp] theorem irqSet_cfg (s : State) (b : Bool) : (irqSet b s).cfg = s.cfg := rfl
@[simp] theorem irqSet_profile (s : State) (b : Bool) : (irqSet b s).profile = s.profile := rfl
@[simp] theorem irqSet_ref (s : State) (b : Bool) : (irqSet b s).ref = s.ref := rfl
@[simp] theorem irqSet_cnt (s : State) (b : Bool) : (irqSet b s).cnt = s.cnt := rfl
@[simp] theorem irqSet_timer (s : State) (b : Bool) : (irqSet b s).timer = s.timer := rfl
@[simp] theorem irqSet_cap (s : State) (b : Bool) : (irqSet b s).cap = s.cap := rfl
@[simp] theorem irqSet_led (s : State) (b : Bool) : (irqSet b s).led = s.led := rfl
@[simp] theorem irqSet_ifState (s : State) (b : Bool) : (irqSet b s).ifState = s.ifState := rfl
@[simp] theorem irqSet_cycIrqEnable (s : State) (b : Bool) : (irqSet b s).cycIrqEnable = s.cycIrqEnable := rfl
@[simp] theorem irqSet_cycIrqPending (s : State) (b : Bool) : (irqSet b s).cycIrqPending = s.cycIrqPending := rfl
@[simp] theorem irqSet_slot (s : State) (b : Bool) : (irqSet b s).slot = s.slot := rfl
@[simp] theorem irqSet_savedSlot (s : State) (b : Bool) : (irqSet b s).savedSlot = s.savedSlot := rfl
@[simp] theorem irqSet_addrDir (s : State) (b : Bool) : (irqSet b s).addrDir = s.addrDir := rfl
@[simp] theorem irqSet_addrLatch (s : State) (b : Bool) : (irqSet b s).addrLatch = s.addrLatch := rfl
@[simp] theorem irqSet_dataDir (s : State) (b : Bool) : (irqSet b s).dataDir = s.dataDir := rfl
@[simp] theorem irqSet_dataLatch (s : State) (b : Bool) : (irqSet b s).dataLatch = s.dataLatch := rfl
@[simp] theorem irqSet_rwDir (s : State) (b : Bool) : (irqSet b s).rwDir = s.rwDir := rfl
@[simp] theorem irqSet_rwLatch (s : State) (b : Bool) : (irqSet b s).rwLatch = s.rwLatch := rfl
@[simp] theorem irqSet_busReq (s : State) (b : Bool) : (irqSet b s).busReq = s.busReq := rfl
@[simp] theorem irqSet_irqOut (s : State) (b : Bool) : (irqSet b s).irqOut = b := rfl
@[simp] theorem irqSet_cartLines (s : State) (b : Bool) : (irqSet b s).cartLines = s.cartLines := rfl
@[simp] theorem irqSet_reg (s : State) (b : Bool) : (irqSet b s).reg = s.reg := rfl
@[simp] theorem irqSet_shadow (s : State) (b : Bool) : (irqSet b s).shadow = s.shadow := rfl
@[simp] theorem irqSet_mem (s : State) (b : Bool) : (irqSet b s).mem = s.mem := rfl
@[simp] theorem irqSet_swapLatch (s : State) (b : Bool) : (irqSet b s).swapLatch = s.swapLatch := rfl
@[simp] theorem irqSet_regionModified (s : State) (b : Bool) : (irqSet b s).regionModified = s.regionModified := rfl
@[simp] theorem irqSet_cart (s : State) (b : Bool) : (irqSet b s).cart = s.cart := rfl
@[simp] theorem irqSet_inp (s : State) (b : Bool) : (irqSet b s).inp = s.inp := rfl
@[simp] theorem irqSet_env (s : State) (b : Bool) : (irqSet b s).env = s.env := rfl
@[simp] theorem irqSet_intervals (s : State) (b : Bool) : (irqSet b s).intervals = s.intervals := rfl
@[simp] theorem irqSet_freeIdx (s : State) (b : Bool) : (irqSet b s).freeIdx = s.freeIdx := rfl
@[simp] theorem irqSet_ret (s : State) (b : Bool) : (irqSet b s).ret = s.ret := rfl
@[simp] theorem irqSet_obs (s : State) (b : Bool) : (irqSet b s).obs = s.obs := rfl

@[simp] theorem cartLinesSet_cfg (s : State) (v : CartLines) : (cartLinesSet v s).cfg = s.cfg := rfl
@[simp] theorem cartLinesSet_profile (s : State) (v : CartLines) : (cartLinesSet v s).profile = s.profile := rfl
@[simp] theorem cartLinesSet_ref (s : State) (v : CartLines) : (cartLinesSet v s).ref = s.ref := rfl
@[simp] theorem cartLinesSet_cnt (s : State) (v : CartLines) : (cartLinesSet v s).cnt = s.cnt := rfl
@[simp] theorem cartLinesSet_timer (s : State) (v : CartLines) : (cartLinesSet v s).timer = s.timer := rfl
@[simp] theorem cartLinesSet_cap (s : State) (v : CartLines) : (cartLinesSet v s).cap = s.cap := rfl
@[simp] theorem cartLinesSet_led (s : State) (v : CartLines) : (cartLinesSet v s).led = s.led := rfl
@[simp] theorem cartLinesSet_ifState (s : State) (v : CartLines) : (cartLinesSet v s).ifState = s.ifState := rfl
@[simp] theorem cartLinesSet_cycIrqEnable (s : State) (v : CartLines) : (cartLinesSet v s).cycIrqEnable = s.cycIrqEnable := rfl
@[simp] theorem cartLinesSet_cycIrqPending (s : State) (v : CartLines) : (cartLinesSet v s).cycIrqPending = s.cycIrqPending := rfl
@[simp] theorem cartLinesSet_slot (s : State) (v : CartLines) : (cartLinesSet v s).slot = s.slot := rfl
@[simp] theorem cartLinesSet_savedSlot (s : State) (v : CartLines) : (cartLinesSet v s).savedSlot = s.savedSlot := rfl
@[simp] theorem cartLinesSet_addrDir (s : State) (v : CartLines) : (cartLinesSet v s).addrDir = s.addrDir := rfl
@[simp] theorem cartLinesSet_addrLatch (s : State) (v : CartLines) : (cartLinesSet v s).addrLatch = s.addrLatch := rfl
@[simp] theorem cartLinesSet_dataDir (s : State) (v : CartLines) : (cartLinesSet v s).dataDir = s.dataDir := rfl
@[simp] theorem cartLinesSet_dataLatch (s : State) (v : CartLines) : (cartLinesSet v s).dataLatch = s.dataLatch := rfl
@[simp] theorem cartLinesSet_rwDir (s : State) (v : CartLines) : (cartLinesSet v s).rwDir = s.rwDir := rfl
@[simp] theorem cartLinesSet_rwLatch (s : State) (v : CartLines) : (cartLinesSet v s).rwLatch = s.rwLatch := rfl
@[simp] theorem cartLinesSet_busReq (s : State) (v : CartLines) : (cartLinesSet v s).busReq = s.busReq := rfl
@[simp] theorem cartLinesSet_irqOut (s : State) (v : CartLines) : (cartLinesSet v s).irqOut = s.irqOut := rfl
@[simp] theorem cartLinesSet_cartLines (s : State) (v : CartLines) : (cartLinesSet v s).cartLines = v := rfl
@[simp] theorem cartLinesSet_reg (s : State) (v : CartLines) : (cartLinesSet v s).reg = s.reg := rfl
@[simp] theorem cartLinesSet_shadow (s : State) (v : CartLines) : (cartLinesSet v s).shadow = s.shadow := rfl
@[simp] theorem cartLinesSet_mem (s : State) (v : CartLines) : (cartLinesSet v s).mem = s.mem := rfl
@[simp] theorem cartLinesSet_swapLatch (s : State) (v : CartLines) : (cartLinesSet v s).swapLatch = s.swapLatch := rfl
@[simp] theorem cartLinesSet_regionModified (s : State) (v : CartLines) : (cartLinesSet v s).regionModified = s.regionModified := rfl
@[simp] theorem cartLinesSet_cart (s : State) (v : CartLines) : (cartLinesSet v s).cart = s.cart := rfl
@[simp] theorem cartLinesSet_inp (s : State) (v : CartLines) : (cartLinesSet v s).inp = s.inp := rfl
@[simp] theorem cartLinesSet_env (s : State) (v : CartLines) : (cartLinesSet v s).env = s.env := rfl
@[simp] theorem cartLinesSet_intervals (s : State) (v : CartLines) : (cartLinesSet v s).intervals = s.intervals := rfl
@[simp] theorem cartLinesSet_freeIdx (s : State) (v : CartLines) : (cartLinesSet v s).freeIdx = s.freeIdx := rfl
@[simp] theorem cartLinesSet_ret (s : State) (v : CartLines) : (cartLinesSet v s).ret = s.ret := rfl
@[simp] theorem cartLinesSet_obs (s : State) (v : CartLines) : (cartLinesSet v s).obs = s.obs := rfl

@[simp] theorem elapse_cfg (s : State) (d : Nat) : (elapse d s).cfg = s.cfg := rfl
@[simp] theorem elapse_profile (s : State) (d : Nat) : (elapse d s).profile = s.profile := rfl
@[simp] theorem elapse_ref (s : State) (d : Nat) : (elapse d s).ref = s.ref := rfl
@[simp] theorem elapse_cnt (s : State) (d : Nat) : (elapse d s).cnt = s.cnt + BitVec.ofNat 32 d := rfl
@[simp] theorem elapse_timer (s : State) (d : Nat) : (elapse d s).timer = (s.timer + d) % 2 ^ s.cfg.timerBits := rfl
@[simp] theorem elapse_cap (s : State) (d : Nat) : (elapse d s).cap = s.cap := rfl
@[simp] theorem elapse_led (s : State) (d : Nat) : (elapse d s).led = s.led := rfl
@[simp] theorem elapse_ifState (s : State) (d : Nat) : (elapse d s).ifState = s.ifState := rfl
@[simp] theorem elapse_cycIrqEnable (s : State) (d : Nat) : (elapse d s).cycIrqEnable = s.cycIrqEnable := rfl
@[simp] theorem elapse_cycIrqPending (s : State) (d : Nat) : (elapse d s).cycIrqPending = s.cycIrqPending := rfl
@[simp] theorem elapse_slot (s : State) (d : Nat) : (elapse d s).slot = s.slot := rfl
@[simp] theorem elapse_savedSlot (s : State) (d : Nat) : (elapse d s).savedSlot = s.savedSlot := rfl
@[simp] theorem elapse_addrDir (s : State) (d : Nat) : (elapse d s).addrDir = s.addrDir := rfl
@[simp] theorem elapse_addrLatch (s : State) (d : Nat) : (elapse d s).addrLatch = s.addrLatch := rfl
@[simp] theorem elapse_dataDir (s : State) (d : Nat) : (elapse d s).dataDir = s.dataDir := rfl
@[simp] theorem elapse_dataLatch (s : State) (d : Nat) : (elapse d s).dataLatch = s.dataLatch := rfl
@[simp] theorem elapse_rwDir (s : State) (d : Nat) : (elapse d s).rwDir = s.rwDir := rfl
@[simp] theorem elapse_rwLatch (s : State) (d : Nat) : (elapse d s).rwLatch = s.rwLatch := rfl
@[simp] theorem elapse_busReq (s : State) (d : Nat) : (elapse d s).busReq = s.busReq := rfl
@[simp] theorem elapse_irqOut (s : State) (d : Nat) : (elapse d s).irqOut = s.irqOut := rfl
@[simp] theorem elapse_cartLines (s : State) (d : Nat) : (elapse d s).cartLines = s.cartLines := rfl
@[simp] theorem elapse_reg (s : State) (d : Nat) : (elapse d s).reg = s.reg := rfl
@[simp] theorem elapse_shadow (s : State) (d : Nat) : (elapse d s).shadow = s.shadow := rfl
@[simp] theorem elapse_mem (s : State) (d : Nat) : (elapse d s).mem = s.mem := rfl
@[simp] theorem elapse_swapLatch (s : State) (d : Nat) : (elapse d s).swapLatch = s.swapLatch := rfl
@[simp] theorem elapse_regionModified (s : State) (d : Nat) : (elapse d s).regionModified = s.regionModified := rfl
@[simp] theorem elapse_cart (s : State) (d : Nat) : (elapse d s).cart = s.cart := rfl
@[simp] theorem elapse_inp (s : State) (d : Nat) : (elapse d s).inp = s.inp := rfl
@[simp] theorem elapse_env (s : State) (d : Nat) : (elapse d s).env = s.env := rfl
@[simp] theorem elapse_intervals (s : State) (d : Nat) : (elapse d s).intervals = s.intervals := rfl
@[simp] theorem elapse_freeIdx (s : State) (d : Nat) : (elapse d s).freeIdx = s.freeIdx := rfl
@[simp] theorem elapse_ret (s : State) (d : Nat) : (elapse d s).ret = s.ret := rfl
@[simp] theorem elapse_obs (s : State) (d : Nat) : (elapse d s).obs = s.obs := rfl

@[simp] theorem resync_cfg (s : State) : (resync s).cfg = s.cfg := rfl
@[simp] theorem resync_profile (s : State) : (resync s).profile = s.profile := rfl
@[simp] theorem resync_ref (s : State) : (resync s).ref = s.ref := rfl
@[simp] theorem resync_cnt (s : State) : (resync s).cnt = BitVec.ofNat 32 s.timer := rfl
@[simp] theorem resync_timer (s : State) : (resync s).timer = s.timer := rfl
@[simp] theorem resync_cap (s : State) : (resync s).cap = s.cap := rfl
@[simp] theorem resync_led (s : State) : (resync s).led = s.led := rfl
@[simp] theorem resync_ifState (s : State) : (resync s).ifState = s.ifState := rfl
@[simp] theorem resync_cycIrqEnable (s : State) : (resync s).cycIrqEnable = s.cycIrqEnable := rfl
@[simp] theorem resync_cycIrqPending (s : State) : (resync s).cycIrqPending = s.cycIrqPending := rfl
@[simp] theorem resync_slot (s : State) : (resync s).slot = s.slot := rfl
@[simp] theorem resync_savedSlot (s : State) : (resync s).savedSlot = s.savedSlot := rfl
@[simp] theorem resync_addrDir (s : State) : (resync s).addrDir = s.addrDir := rfl
@[simp] theorem resync_addrLatch (s : State) : (resync s).addrLatch = s.addrLatch := rfl
@[simp] theorem resync_dataDir (s : State) : (resync s).dataDir = s.dataDir := rfl
@[simp] theorem resync_dataLatch (s : State) : (resync s).dataLatch = s.dataLatch := rfl
@[simp] theorem resync_rwDir (s : State) : (resync s).rwDir = s.rwDir := rfl
@[simp] theorem resync_rwLatch (s : State) : (resync s).rwLatch = s.rwLatch := rfl
@[simp] theorem resync_busReq (s : State) : (resync s).busReq = s.busReq := rfl
@[simp] theorem resync_irqOut (s : State) : (resync s).irqOut = s.irqOut := rfl
@[simp] theorem resync_cartLines (s : State) : (resync s).cartLines = s.cartLines := rfl
@[simp] theorem resync_reg (s : State) : (resync s).reg = s.reg := rfl
@[simp] theorem resync_shadow (s : State) : (resync s).shadow = s.shadow := rfl
@[simp] theorem resync_mem (s : State) : (resync s).mem = s.mem := rfl
@[simp] theorem resync_swapLatch (s : State) : (resync s).swapLatch = s.swapLatch := rfl
@[simp] theorem resync_regionModified (s : State) : (resync s).regionModified = s.regionModified := rfl
@[simp] theorem resync_cart (s : State) : (resync s).cart = s.cart := rfl
@[simp] theorem resync_inp (s : State) : (resync s).inp = s.inp := rfl
@[simp] theorem resync_env (s : State) : (resync s).env = s.env := rfl
@[simp] theorem resync_intervals (s : State) : (resync s).intervals = s.intervals := rfl
@[simp] theorem resync_freeIdx (s : State) : (resync s).freeIdx = s.freeIdx := rfl
@[simp] theorem resync_ret (s : State) : (resync s).ret = s.ret := rfl
@[simp] theorem resync_obs (s : State) : (resync s).obs = s.obs := rfl

@[simp] theorem waitUntil_cfg (s : State) (t : Time) : (waitUntil t s).cfg = s.cfg := rfl
@[simp] theorem waitUntil_profile (s : State) (t : Time) : (waitUntil t s).profile = s.profile := rfl
@[simp] theorem waitUntil_ref (s : State) (t : Time) : (waitUntil t s).ref = s.ref := rfl
@[simp] theorem waitUntil_cap (s : State) (t : Time) : (waitUntil t s).cap = s.cap := rfl
@[simp] theorem waitUntil_led (s : State) (t : Time) : (waitUntil t s).led = s.led := rfl
@[simp] theorem waitUntil_ifState (s : State) (t : Time) : (waitUntil t s).ifState = s.ifState := rfl
@[simp] theorem waitUntil_cycIrqEnable (s : State) (t : Time) : (waitUntil t s).cycIrqEnable = s.cycIrqEnable := rfl
@[simp] theorem waitUntil_cycIrqPending (s : State) (t : Time) : (waitUntil t s).cycIrqPending = s.cycIrqPending := rfl
@[simp] theorem waitUntil_slot (s : State) (t : Time) : (waitUntil t s).slot = s.slot := rfl
@[simp] theorem waitUntil_savedSlot (s : State) (t : Time) : (waitUntil t s).savedSlot = s.savedSlot := rfl
@[simp] theorem waitUntil_addrDir (s : State) (t : Time) : (waitUntil t s).addrDir = s.addrDir := rfl
@[simp] theorem waitUntil_addrLatch (s : State) (t : Time) : (waitUntil t s).addrLatch = s.addrLatch := rfl
@[simp] theorem waitUntil_dataDir (s : State) (t : Time) : (waitUntil t s).dataDir = s.dataDir := rfl
@[simp] theorem waitUntil_dataLatch (s : State) (t : Time) : (waitUntil t s).dataLatch = s.dataLatch := rfl
@[simp] theorem waitUntil_rwDir (s : State) (t : Time) : (waitUntil t s).rwDir = s.rwDir := rfl
@[simp] theorem waitUntil_rwLatch (s : State) (t : Time) : (waitUntil t s).rwLatch = s.rwLatch := rfl
@[simp] theorem waitUntil_busReq (s : State) (t : Time) : (waitUntil t s).busReq = s.busReq := rfl
@[simp] theorem waitUntil_irqOut (s : State) (t : Time) : (waitUntil t s).irqOut = s.irqOut := rfl
@[simp] theorem waitUntil_cartLines (s : State) (t : Time) : (waitUntil t s).cartLines = s.cartLines := rfl
@[simp] theorem waitUntil_reg (s : State) (t : Time) : (waitUntil t s).reg = s.reg := rfl
@[simp] theorem waitUntil_shadow (s : State) (t : Time) : (waitUntil t s).shadow = s.shadow := rfl
@[simp] theorem waitUntil_mem (s : State) (t : Time) : (waitUntil t s).mem = s.mem := rfl
@[simp] theorem waitUntil_swapLatch (s : State) (t : Time) : (waitUntil t s).swapLatch = s.swapLatch := rfl
@[simp] theorem waitUntil_regionModified (s : State) (t : Time) : (waitUntil t s).regionModified = s.regionModified := rfl
@[simp] theorem waitUntil_cart (s : State) (t : Time) : (waitUntil t s).cart = s.cart := rfl
@[simp] theorem waitUntil_inp (s : State) (t : Time) : (waitUntil t s).inp = s.inp := rfl
@[simp] theorem waitUntil_env (s : State) (t : Time) : (waitUntil t s).env = s.env := rfl
@[simp] theorem waitUntil_intervals (s : State) (t : Time) : (waitUntil t s).intervals = s.intervals := rfl
@[simp] theorem waitUntil_freeIdx (s : State) (t : Time) : (waitUntil t s).freeIdx = s.freeIdx := rfl
@[simp] theorem waitUntil_ret (s : State) (t : Time) : (waitUntil t s).ret = s.ret := rfl
@[simp] theorem waitUntil_obs (s : State) (t : Time) : (waitUntil t s).obs = s.obs := rfl

@[simp] theorem enterHandler_cfg (s : State) : (enterHandler s).cfg = s.cfg := rfl
@[simp] theorem enterHandler_profile (s : State) : (enterHandler s).profile = s.profile := rfl
@[simp] theorem enterHandler_ref (s : State) : (enterHandler s).ref = s.ref := rfl
@[simp] theorem enterHandler_cnt (s : State) : (enterHandler s).cnt = BitVec.ofNat 32 s.timer := rfl
@[simp] theorem enterHandler_timer (s : State) : (enterHandler s).timer = s.timer := rfl
@[simp] theorem enterHandler_cap (s : State) : (enterHandler s).cap = s.cap := rfl
@[simp] theorem enterHandler_led (s : State) : (enterHandler s).led = s.led := rfl
@[simp] theorem enterHandler_ifState (s : State) : (enterHandler s).ifState = s.ifState := rfl
@[simp] theorem enterHandler_cycIrqEnable (s : State) : (enterHandler s).cycIrqEnable = s.cycIrqEnable := rfl
@[simp] theorem enterHandler_cycIrqPending (s : State) : (enterHandler s).cycIrqPending = false := rfl
@[simp] theorem enterHandler_slot (s : State) : (enterHandler s).slot = s.slot := rfl
@[simp] theorem enterHandler_savedSlot (s : State) : (enterHandler s).savedSlot = s.savedSlot := rfl
@[simp] theorem enterHandler_addrDir (s : State) : (enterHandler s).addrDir = s.addrDir := rfl
@[simp] theorem enterHandler_addrLatch (s : State) : (enterHandler s).addrLatch = s.addrLatch := rfl
@[simp] theorem enterHandler_dataDir (s : State) : (enterHandler s).dataDir = s.dataDir := rfl
@[simp] theorem enterHandler_dataLatch (s : State) : (enterHandler s).dataLatch = s.dataLatch := rfl
@[simp] theorem enterHandler_rwDir (s : State) : (enterHandler s).rwDir = s.rwDir := rfl
@[simp] theorem enterHandler_rwLatch (s : State) : (enterHandler s).rwLatch = s.rwLatch := rfl
@[simp] theorem enterHandler_busReq (s : State) : (enterHandler s).busReq = s.busReq := rfl
@[simp] theorem enterHandler_irqOut (s : State) : (enterHandler s).irqOut = s.irqOut := rfl
@[simp] theorem enterHandler_cartLines (s : State) : (enterHandler s).cartLines = s.cartLines := rfl
@[simp] theorem enterHandler_reg (s : State) : (enterHandler s).reg = s.reg := rfl
@[simp] theorem enterHandler_shadow (s : State) : (enterHandler s).shadow = s.shadow := rfl
@[simp] theorem enterHandler_mem (s : State) : (enterHandler s).mem = s.mem := rfl
@[simp] theorem enterHandler_swapLatch (s : State) : (enterHandler s).swapLatch = s.swapLatch := rfl
@[simp] theorem enterHandler_regionModified (s : State) : (enterHandler s).regionModified = s.regionModified := rfl
@[simp] theorem enterHandler_cart (s : State) : (enterHandler s).cart = s.cart := rfl
@[simp] theorem enterHandler_inp (s : State) : (enterHandler s).inp = s.inp := rfl
@[simp] theorem enterHandler_env (s : State) : (enterHandler s).env = s.env := rfl
@[simp] theorem enterHandler_intervals (s : State) : (enterHandler s).intervals = s.intervals := rfl
@[simp] theorem enterHandler_freeIdx (s : State) : (enterHandler s).freeIdx = s.freeIdx := rfl
@[simp] theorem enterHandler_ret (s : State) : (enterHandler s).ret = s.ret := rfl
@[simp] theorem enterHandler_obs (s : State) : (enterHandler s).obs = noObs := rfl

@[simp] theorem latchCycle_cfg (s : State) (c : HostCycle) : (latchCycle c s).cfg = s.cfg := rfl
@[simp] theorem latchCycle_profile (s : State) (c : HostCycle) : (latchCycle c s).profile = s.profile := rfl
@[simp] theorem latchCycle_ref (s : State) (c : HostCycle) : (latchCycle c s).ref = s.ref := rfl
@[simp] theorem latchCycle_led (s : State) (c : HostCycle) : (latchCycle c s).led = s.led := rfl
@[simp] theorem latchCycle_ifState (s : State) (c : HostCycle) : (latchCycle c s).ifState = s.ifState := rfl
@[simp] theorem latchCycle_cycIrqEnable (s : State) (c : HostCycle) : (latchCycle c s).cycIrqEnable = s.cycIrqEnable := rfl
@[simp] theorem latchCycle_cycIrqPending (s : State) (c : HostCycle) : (latchCycle c s).cycIrqPending = true := rfl
@[simp] theorem latchCycle_slot (s : State) (c : HostCycle) : (latchCycle c s).slot = s.slot := rfl
@[simp] theorem latchCycle_savedSlot (s : State) (c : HostCycle) : (latchCycle c s).savedSlot = s.savedSlot := rfl
@[simp] theorem latchCycle_addrDir (s : State) (c : HostCycle) : (latchCycle c s).addrDir = s.addrDir := rfl
@[simp] theorem latchCycle_addrLatch (s : State) (c : HostCycle) : (latchCycle c s).addrLatch = s.addrLatch := rfl
@[simp] theorem latchCycle_dataDir (s : State) (c : HostCycle) : (latchCycle c s).dataDir = s.dataDir := rfl
@[simp] theorem latchCycle_dataLatch (s : State) (c : HostCycle) : (latchCycle c s).dataLatch = s.dataLatch := rfl
@[simp] theorem latchCycle_rwDir (s : State) (c : HostCycle) : (latchCycle c s).rwDir = s.rwDir := rfl
@[simp] theorem latchCycle_rwLatch (s : State) (c : HostCycle) : (latchCycle c s).rwLatch = s.rwLatch := rfl
@[simp] theorem latchCycle_busReq (s : State) (c : HostCycle) : (latchCycle c s).busReq = s.busReq := rfl
@[simp] theorem latchCycle_irqOut (s : State) (c : HostCycle) : (latchCycle c s).irqOut = s.irqOut := rfl
@[simp] theorem latchCycle_cartLines (s : State) (c : HostCycle) : (latchCycle c s).cartLines = s.cartLines := rfl
@[simp] theorem latchCycle_reg (s : State) (c : HostCycle) : (latchCycle c s).reg = s.reg := rfl
@[simp] theorem latchCycle_shadow (s : State) (c : HostCycle) : (latchCycle c s).shadow = s.shadow := rfl
@[simp] theorem latchCycle_mem (s : State) (c : HostCycle) : (latchCycle c s).mem = s.mem := rfl
@[simp] theorem latchCycle_swapLatch (s : State) (c : HostCycle) : (latchCycle c s).swapLatch = s.swapLatch := rfl
@[simp] theorem latchCycle_regionModified (s : State) (c : HostCycle) : (latchCycle c s).regionModified = s.regionModified := rfl
@[simp] theorem latchCycle_cart (s : State) (c : HostCycle) : (latchCycle c s).cart = s.cart := rfl
@[simp] theorem latchCycle_inp (s : State) (c : HostCycle) : (latchCycle c s).inp = ⟨c.addr, c.ctrl, c.data, c.latency, c.timing⟩ := rfl
@[simp] theorem latchCycle_env (s : State) (c : HostCycle) : (latchCycle c s).env = s.env := rfl
@[simp] theorem latchCycle_intervals (s : State) (c : HostCycle) : (latchCycle c s).intervals = s.intervals := rfl
@[simp] theorem latchCycle_freeIdx (s : State) (c : HostCycle) : (latchCycle c s).freeIdx = s.freeIdx := rfl
@[simp] theorem latchCycle_ret (s : State) (c : HostCycle) : (latchCycle c s).ret = s.ret := rfl
@[simp] theorem latchCycle_obs (s : State) (c : HostCycle) : (latchCycle c s).obs = noObs := rfl

@[simp] theorem decLength_cfg (s : State) : (decLength s).cfg = s.cfg := rfl
@[simp] theorem decLength_profile (s : State) : (decLength s).profile = s.profile := rfl
@[simp] theorem decLength_ref (s : State) : (decLength s).ref = s.ref := rfl
@[simp] theorem decLength_cnt (s : State) : (decLength s).cnt = s.cnt := rfl
@[simp] theorem decLength_timer (s : State) : (decLength s).timer = s.timer := rfl
@[simp] theorem decLength_cap (s : State) : (decLength s).cap = s.cap := rfl
@[simp] theorem decLength_led (s : State) : (decLength s).led = s.led := rfl
@[simp] theorem decLength_ifState (s : State) : (decLength s).ifState = s.ifState := rfl
@[simp] theorem decLength_cycIrqEnable (s : State) : (decLength s).cycIrqEnable = s.cycIrqEnable := rfl
@[simp] theorem decLength_cycIrqPending (s : State) : (decLength s).cycIrqPending = s.cycIrqPending := rfl
@[simp] theorem decLength_slot (s : State) : (decLength s).slot = s.slot := rfl
@[simp] theorem decLength_savedSlot (s : State) : (decLength s).savedSlot = s.savedSlot := rfl
@[simp] theorem decLength_addrDir (s : State) : (decLength s).addrDir = s.addrDir := rfl
@[simp] theorem decLength_addrLatch (s : State) : (decLength s).addrLatch = s.addrLatch := rfl
@[simp] theorem decLength_dataDir (s : State) : (decLength s).dataDir = s.dataDir := rfl
@[simp] theorem decLength_dataLatch (s : State) : (decLength s).dataLatch = s.dataLatch := rfl
@[simp] theorem decLength_rwDir (s : State) : (decLength s).rwDir = s.rwDir := rfl
@[simp] theorem decLength_rwLatch (s : State) : (decLength s).rwLatch = s.rwLatch := rfl
@[simp] theorem decLength_busReq (s : State) : (decLength s).busReq = s.busReq := rfl
@[simp] theorem decLength_irqOut (s : State) : (decLength s).irqOut = s.irqOut := rfl
@[simp] theorem decLength_cartLines (s : State) : (decLength s).cartLines = s.cartLines := rfl
@[simp] theorem decLength_reg (s : State) : (decLength s).reg = s.reg.putLength (s.reg.length - 1) := rfl
@[simp] theorem decLength_shadow (s : State) : (decLength s).shadow = s.shadow := rfl
@[simp] theorem decLength_mem (s : State) : (decLength s).mem = s.mem := rfl
@[simp] theorem decLength_swapLatch (s : State) : (decLength s).swapLatch = s.swapLatch := rfl
@[simp] theorem decLength_regionModified (s : State) : (decLength s).regionModified = s.regionModified := rfl
@[simp] theorem decLength_cart (s : State) : (decLength s).cart = s.cart := rfl
@[simp] theorem decLength_inp (s : State) : (decLength s).inp = s.inp := rfl
@[simp] theorem decLength_env (s : State) : (decLength s).env = s.env := rfl
@[simp] theorem decLength_intervals (s : State) : (decLength s).intervals = s.intervals := rfl
@[simp] theorem decLength_freeIdx (s : State) : (decLength s).freeIdx = s.freeIdx := rfl
@[simp] theorem decLength_ret (s : State) : (decLength s).ret = s.ret := rfl
@[simp] theorem decLength_obs (s : State) : (decLength s).obs = s.obs := rfl

@[simp] theorem perWrite_cfg (s : State) (v : Byte) : (perWrite v s).cfg = s.cfg := rfl
@[simp] theorem perWrite_profile (s : State) (v : Byte) : (perWrite v s).profile = s.profile := rfl
@[simp] theorem perWrite_ref (s : State) (v : Byte) : (perWrite v s).ref = s.ref := rfl
@[simp] theorem perWrite_cnt (s : State) (v : Byte) : (perWrite v s).cnt = s.cnt := rfl
@[simp] theorem perWrite_timer (s : State) (v : Byte) : (perWrite v s).timer = s.timer := rfl
@[simp] theorem perWrite_cap (s : State) (v : Byte) : (perWrite v s).cap = s.cap := rfl
@[simp] theorem perWrite_led (s : State) (v : Byte) : (perWrite v s).led = s.led := rfl
@[simp] theorem perWrite_ifState (s : State) (v : Byte) : (perWrite v s).ifState = s.ifState := rfl
@[simp] theorem perWrite_cycIrqEnable (s : State) (v : Byte) : (perWrite v s).cycIrqEnable = s.cycIrqEnable := rfl
@[simp] theorem perWrite_cycIrqPending (s : State) (v : Byte) : (perWrite v s).cycIrqPending = s.cycIrqPending := rfl
@[simp] theorem perWrite_slot (s : State) (v : Byte) : (perWrite v s).slot = s.slot := rfl
@[simp] theorem perWrite_savedSlot (s : State) (v : Byte) : (perWrite v s).savedSlot = s.savedSlot := rfl
@[simp] theorem perWrite_addrDir (s : State) (v : Byte) : (perWrite v s).addrDir = s.addrDir := rfl
@[simp] theorem perWrite_addrLatch (s : State) (v : Byte) : (perWrite v s).addrLatch = s.addrLatch := rfl
@[simp] theorem perWrite_dataDir (s : State) (v : Byte) : (perWrite v s).dataDir = s.dataDir := rfl
@[simp] theorem perWrite_dataLatch (s : State) (v : Byte) : (perWrite v s).dataLatch = s.dataLatch := rfl
@[simp] theorem perWrite_rwDir (s : State) (v : Byte) : (perWrite v s).rwDir = s.rwDir := rfl
@[simp] theorem perWrite_rwLatch (s : State) (v : Byte) : (perWrite v s).rwLatch = s.rwLatch := rfl
@[simp] theorem perWrite_busReq (s : State) (v : Byte) : (perWrite v s).busReq = s.busReq := rfl
@[simp] theorem perWrite_irqOut (s : State) (v : Byte) : (perWrite v s).irqOut = s.irqOut := rfl
@[simp] theorem perWrite_cartLines (s : State) (v : Byte) : (perWrite v s).cartLines = s.cartLines := rfl
@[simp] theorem perWrite_reg (s : State) (v : Byte) : (perWrite v s).reg = s.reg := rfl
@[simp] theorem perWrite_shadow (s : State) (v : Byte) : (perWrite v s).shadow = s.shadow := rfl
@[simp] theorem perWrite_swapLatch (s : State) (v : Byte) : (perWrite v s).swapLatch = s.swapLatch := rfl
@[simp] theorem perWrite_regionModified (s : State) (v : Byte) : (perWrite v s).regionModified = (s.regionModified || s.cfg.dmaMarksModified) := rfl
@[simp] theorem perWrite_cart (s : State) (v : Byte) : (perWrite v s).cart = s.cart := rfl
@[simp] theorem perWrite_inp (s : State) (v : Byte) : (perWrite v s).inp = s.inp := rfl
@[simp] theorem perWrite_env (s : State) (v : Byte) : (perWrite v s).env = s.env := rfl
@[simp] theorem perWrite_intervals (s : State) (v : Byte) : (perWrite v s).intervals = s.intervals := rfl
@[simp] theorem perWrite_freeIdx (s : State) (v : Byte) : (perWrite v s).freeIdx = s.freeIdx := rfl
@[simp] theorem perWrite_ret (s : State) (v : Byte) : (perWrite v s).ret = s.ret := rfl
@[simp] theorem perWrite_obs (s : State) (v : Byte) : (perWrite v s).obs = s.obs := rfl

end Sys2Proof.Machine
end

