-- ==== Sys2Proof/Laws/Ops.lean ====
section
/-! SUPPORT. One lemma for each shared operation that says what it can do, and the descriptor views of written
registers. -/

namespace Sys2Proof.Machine

/-! ### Outcomes -/

@[simp] theorem andThen_next {α β : Type} (x : α) (f : α → Host.Outcome β Fault Refusal) :
    andThen (.next x) f = f x := rfl

@[simp] theorem andThen_fault {α β : Type} (r : Fault) (f : α → Host.Outcome β Fault Refusal) :
    andThen (.fault r : Host.Outcome α Fault Refusal) f = .fault r := rfl

@[simp] theorem andThen_refused {α β : Type} (r : Refusal) (f : α → Host.Outcome β Fault Refusal) :
    andThen (.refused r : Host.Outcome α Fault Refusal) f = .refused r := rfl

/-- A composed operation answers a next state only through a next state of its first part. -/
theorem andThen_eq_next {α β : Type} {o : Host.Outcome α Fault Refusal} {f : α → Host.Outcome β Fault Refusal} {y : β} :
    andThen o f = .next y ↔ ∃ x, o = .next x ∧ f x = .next y := by
  cases o <;> simp [andThen]

@[simp] theorem unlessFault_none {α : Type} (f : Host.Outcome α Fault Refusal) : unlessFault none f = f := rfl

@[simp] theorem unlessFault_some {α : Type} (r : Fault) (f : Host.Outcome α Fault Refusal) :
    unlessFault (some r) f = .fault r := rfl

/-- A checked operation answers a next state only where nothing was found. -/
theorem unlessFault_eq_next {α : Type} {o : Option Fault} {f : Host.Outcome α Fault Refusal} {x : α} :
    unlessFault o f = .next x ↔ o = none ∧ f = .next x := by
  cases o <;> simp

/-! ### Descriptor views -/

theorem append_halves (x : BitVec 16) : (x.extractLsb' 8 8 ++ x.extractLsb' 0 8 : BitVec 16) = x := by
  ext i hi
  simp only [BitVec.getElem_append, BitVec.getElem_extractLsb']
  split
  · simp [BitVec.getLsbD_eq_getElem, hi]
  · rename_i h
    have : 8 + (i - 8) = i := by omega
    simp [this, BitVec.getLsbD_eq_getElem, hi]

theorem append_thirds (x : BitVec 24) :
    (x.extractLsb' 16 8 ++ x.extractLsb' 8 8 ++ x.extractLsb' 0 8 : BitVec 24) = x := by
  ext i hi
  simp only [BitVec.getElem_append, BitVec.getElem_extractLsb']
  split
  · simp [BitVec.getLsbD_eq_getElem, hi]
  · split
    · rename_i h1 h2
      have : 8 + (i - 8) = i := by omega
      simp [this, BitVec.getLsbD_eq_getElem, hi]
    · rename_i h1 h2
      have : 16 + (i - 8 - 8) = i := by omega
      simp [this, BitVec.getLsbD_eq_getElem, hi]

@[simp] theorem hostAddr_putHostAddr (f : RegFile) (a : Addr) : (f.putHostAddr a).hostAddr = a := append_halves a

@[simp] theorem length_putLength (f : RegFile) (l : BitVec 16) : (f.putLength l).length = l := append_halves l

@[simp] theorem perAddr_putPerAddr (f : RegFile) (p : PerAddr) (size : ReuSize) :
    (f.putPerAddr p).perAddr size = p &&& size.mask := by
  show (p.extractLsb' 16 8 ++ p.extractLsb' 8 8 ++ p.extractLsb' 0 8 : BitVec 24) &&& size.mask = _
  rw [append_thirds]

@[simp] theorem length_putHostAddr (f : RegFile) (a : Addr) : (f.putHostAddr a).length = f.length := rfl

@[simp] theorem length_putPerAddr (f : RegFile) (p : PerAddr) : (f.putPerAddr p).length = f.length := rfl

@[simp] theorem hostAddr_putPerAddr (f : RegFile) (p : PerAddr) : (f.putPerAddr p).hostAddr = f.hostAddr := rfl

@[simp] theorem hostAddr_putLength (f : RegFile) (l : BitVec 16) : (f.putLength l).hostAddr = f.hostAddr := rfl

@[simp] theorem perAddr_putHostAddr (f : RegFile) (a : Addr) (size : ReuSize) :
    (f.putHostAddr a).perAddr size = f.perAddr size := rfl

@[simp] theorem perAddr_putLength (f : RegFile) (l : BitVec 16) (size : ReuSize) :
    (f.putLength l).perAddr size = f.perAddr size := rfl

/-! ### Waits and bus ownership -/

/-- A cycle without a timing record breaks no wait window (60_exceptions.md R220). -/
theorem waitFault_untimed {edge r : Time} {call : Nat} {s : State} (h : s.inp.timing = none) :
    waitFault edge r call s = none := by
  unfold waitFault
  rw [h]

/-- What a timed wait needs (41_phase_tracker.md R128). -/
theorem waitFault_eq_none {edge r : Time} {call : Nat} {s : State} {tm : CycleTiming} (h : s.inp.timing = some tm) :
    waitFault edge r call s = none ↔ r.toNat < tm.period ∧ lateCall r.toNat call s = false := by
  unfold waitFault
  rw [h]
  simp only []
  split
  · simp only [true_iff]
    assumption
  · simp only [reduceCtorEq, false_iff]
    assumption

theorem refsReady_iff {s : State} : refsReady s = true ↔ s.ref.armed = true ∧ s.profile ≠ .unclassified := by
  simp [refsReady]

theorem refsReady_eq_false {s : State} :
    refsReady s = false ↔ s.ref.armed = false ∨ s.profile = .unclassified := by
  simp [refsReady]
  cases s.ref.armed <;> simp

theorem waitRef_unarmed {op : UnarmedOp} {edge r : Time} {call : Nat} {s : State} (h : refsReady s = false) :
    waitRef op edge r call s = .fault (.unarmed op s) := by
  unfold waitRef
  rw [h]
  rfl

theorem waitRef_armed {op : UnarmedOp} {edge r : Time} {call : Nat} {s : State} (h : refsReady s = true)
    (ht : s.inp.timing = none) : waitRef op edge r call s = .next (waitUntil (edge + r) s) := by
  unfold waitRef
  rw [if_pos h, waitFault_untimed ht]
  rfl

theorem waitRef_eq_next {op : UnarmedOp} {edge r : Time} {call : Nat} {s u : State} :
    waitRef op edge r call s = .next u ↔
      refsReady s = true ∧ waitFault edge r call s = none ∧ u = waitUntil (edge + r) s := by
  unfold waitRef
  cases h : refsReady s
  · simp
  · simp only [if_true, true_and, unlessFault_eq_next, Host.Outcome.next.injEq]
    exact and_congr_right fun _ => eq_comm

theorem releaseData_untimed {edge : Time} {s : State} (h : s.inp.timing = none) :
    releaseData edge s = .next (dataDirIn s) := by
  unfold releaseData
  rw [h]

theorem releaseData_eq_next {edge : Time} {s u : State} :
    releaseData edge s = .next u ↔
      (∀ tm, s.inp.timing = some tm → tm.release < tm.period) ∧ u = dataDirIn s := by
  unfold releaseData
  cases h : s.inp.timing with
  | none => simpa using eq_comm
  | some tm =>
    simp only [Option.some.injEq, forall_eq']
    split
    · simp only [reduceCtorEq, false_iff, not_and]
      omega
    · simp only [Host.Outcome.next.injEq]
      exact ⟨fun e => ⟨by omega, e.symm⟩, fun e => e.2.symm⟩

/-- The phase references are armed from the operand's base, with operand and state classified and the offset in range
(41_phase_tracker.md R123, 60_exceptions.md R225). -/
theorem armRefs_eq_next {p : Profile} {offset : Int} {s t : State} :
    armRefs p offset s = .next t ↔
      s.profile ≠ .unclassified ∧ ∃ b, baseOf s.cfg p = some b ∧ Config.offsetMin ≤ offset ∧
        offset ≤ Config.offsetMax ∧
        t = { s with ref := ⟨refTime b.dmaHigh offset, refTime b.high offset, refTime b.low offset, offset, true⟩ } := by
  unfold armRefs armBase
  by_cases h : s.profile = .unclassified
  · simp [h]
  · rw [if_neg h]
    cases baseOf s.cfg p with
    | none => simp
    | some b =>
      simp only [Option.some.injEq, exists_eq_left', ne_eq, h, not_false_eq_true, true_and]
      split
      · simp only [reduceCtorEq, false_iff]
        omega
      · simp only [Host.Outcome.next.injEq]
        exact ⟨fun e => ⟨by omega, by omega, e.symm⟩, fun e => e.2.2.symm⟩

/-- A state whose clock is classified arms from its operand's base alone. -/
theorem armBase_classified {p : Profile} {s : State} (h : s.profile ≠ .unclassified) : armBase p s = baseOf s.cfg p :=
  if_neg h

/-- A pass of WAIT_VALID_CLOCK leaves the profile it answers in the state (41_phase_tracker.md R120, R122). -/
theorem waitAttempt_profile (s : State) : (waitAttempt s).2.profile = profileOf (waitAttempt s).1 := rfl

theorem addrDirOut_owned {s : State} (h : s.busReq = true) : addrDirOut s = .next { s with addrDir := .output } :=
  if_pos h

theorem addrDirOut_eq_next {s u : State} :
    addrDirOut s = .next u ↔ s.busReq = true ∧ u = { s with addrDir := .output } := by
  unfold addrDirOut
  split
  · rename_i h
    exact ⟨fun e => ⟨h, (Host.Outcome.next.inj e).symm⟩, fun e => congrArg _ e.2.symm⟩
  · rename_i h
    exact ⟨fun e => by injection e, fun e => absurd e.1 h⟩

theorem rwDrive_owned {b : Bool} {s : State} (h : s.busReq = true) :
    rwDrive b s = .next { s with rwLatch := b, rwDir := .output } := if_pos h

theorem rwDrive_eq_next {b : Bool} {s u : State} :
    rwDrive b s = .next u ↔ s.busReq = true ∧ u = { s with rwLatch := b, rwDir := .output } := by
  unfold rwDrive
  split
  · rename_i h
    exact ⟨fun e => ⟨h, (Host.Outcome.next.inj e).symm⟩, fun e => congrArg _ e.2.symm⟩
  · rename_i h
    exact ⟨fun e => by injection e, fun e => absurd e.1 h⟩

theorem dataDirOut_eq_next {s u : State} :
    dataDirOut s = .next u ↔ (s.inp.ctrl.rw = true ∨ s.busReq = true) ∧ u = { s with dataDir := .output } := by
  unfold dataDirOut
  split
  · rename_i h
    exact ⟨fun e => by injection e, fun e => by simp [h.1, h.2] at e⟩
  · rename_i h
    refine ⟨fun e => ⟨?_, (Host.Outcome.next.inj e).symm⟩, fun e => congrArg _ e.2.symm⟩
    cases h1 : s.inp.ctrl.rw <;> cases h2 : s.busReq <;> simp_all

theorem dataDirOut_owned {s : State} (h : s.busReq = true) : dataDirOut s = .next { s with dataDir := .output } := by
  exact dataDirOut_eq_next.2 ⟨.inr h, rfl⟩

/-- With the bus owned, no bus is driven from both sides (40_bus_primitives.md R115). -/
theorem contended_owned {s : State} (h : s.busReq = true) : contended s = none := if_pos h

/-- With all buses released, none is driven from both sides (40_bus_primitives.md R115). -/
theorem contended_released {s : State} (ha : s.addrDir = .input) (hr : s.rwDir = .input) (hd : s.dataDir = .input) :
    contended s = none := by
  simp [contended, ha, hr, hd]

/-- A DMA read in an untimed cycle with the bus owned: the byte on the data bus, and the pins it leaves. -/
theorem hostBusRead_owned {edge : Time} {a : Addr} {s : State} (h : s.busReq = true) (ha : refsReady s = true)
    (ht : s.inp.timing = none) :
    hostBusRead edge a s = .next (dataRead s,
      { waitUntil (edge + s.ref.high)
          { s with addrLatch := a, addrDir := .output, rwLatch := true, rwDir := .output } with
        obs := { s.obs with dmaAddr := some a } }) := by
  unfold hostBusRead
  rw [addrDirOut_owned (s := addrDrive a s) h, andThen_next, rwDrive_owned (by exact h), andThen_next,
    waitRef_armed (by exact ha) (by exact ht)]
  rfl

/-- A DMA write in an untimed cycle with the bus owned: the byte driven and released, and the pins it leaves. -/
theorem hostBusWrite_owned {edge : Time} {a : Addr} {v : Byte} {s : State} (h : s.busReq = true)
    (ha : refsReady s = true) (ht : s.inp.timing = none) :
    hostBusWrite edge a v s = .next
      { waitUntil (edge + s.ref.low)
          { s with addrLatch := a, addrDir := .output, rwLatch := false, rwDir := .output, dataLatch := v } with
        dataDir := .input
        obs := { s.obs with dmaAddr := some a, driven := some v } } := by
  unfold hostBusWrite
  rw [addrDirOut_owned (s := addrDrive a s) h, andThen_next, rwDrive_owned (by exact h), andThen_next,
    dataDirOut_owned (by exact h), andThen_next, waitRef_armed (by exact ha) (by exact ht), andThen_next,
    releaseData_untimed (by exact ht)]
  rfl

/-- An untimed DMA cycle with armed references runs its body after the wait. -/
theorem dmaCycle_armed {body : Time → State → Out} {s : State} (h : refsReady s = true) (ht : s.inp.timing = none) :
    dmaCycle body s =
      andThen (body (startEdge s) (waitUntil (startEdge s + s.ref.dmaHigh) (enterHandler s)))
        fun u => .next (u.setRet .none) := by
  unfold dmaCycle
  rw [waitRef_armed (by exact h) (by exact ht), andThen_next]

/-! ### Released pins -/

/-- BUS_SAFE_IDLE as one update. -/
theorem busSafeIdle_eq (s : State) : busSafeIdle s = { s with
    dataDir := .input
    addrDir := .input
    rwDir := .input
    busReq := false
    irqOut := false
    cartLines := .deasserted } := by
  ext1 <;> simp [busSafeIdle]

/-- DISABLE_INTERFACE as one update. -/
theorem disableInterface_eq (s : State) : disableInterface s = { s with
    cycIrqEnable := false
    slot := .none
    savedSlot := .none
    dataDir := .input
    addrDir := .input
    rwDir := .input
    busReq := false
    irqOut := false
    cartLines := .deasserted
    ifState := .idle } := by
  unfold disableInterface
  rw [busSafeIdle_eq]

/-! ### Mode entry -/

/-- A mode entry writes the variant's own state, whose modified flags are false, and draws at most once. -/
theorem enterVariant_eq (mode : Handler) (s : State) : ∃ k i,
    enterVariant mode s = { s with cart := k, freeIdx := i } ∧ ∀ b ∈ k.modified, b = false := by
  unfold enterVariant
  split
  · exact ⟨_, _, rfl, fun b hb => by
      obtain ⟨_, _, rfl⟩ := List.mem_map.1 hb
      rfl⟩
  · exact ⟨_, _, rfl, fun b hb => by
      obtain ⟨_, _, rfl⟩ := List.mem_map.1 hb
      rfl⟩

/-- The mark operation writes flags only. -/
theorem markRegion_eq (r : Region) (s : State) : ∃ b k, markRegion r s = { s with regionModified := b, cart := k } := by
  cases r <;> exact ⟨_, _, rfl⟩

/-- The mark runs while the interrupt is masked, and clears a flag (20_memory.md R77). -/
theorem extMark_eq_next {r : Region} {s t : State} :
    extMark r s = .next t ↔ s.cycIrqEnable = false ∧ t = markRegion r s := by
  unfold extMark
  cases s.cycIrqEnable
  · simpa using eq_comm
  · simp

/-! ### Trigger -/

theorem startTransfer_eq_next {code : BitVec 3} {s t : State} :
    startTransfer code s = .next t ↔
      slotIsDma s.slot = false ∧ t = { s with savedSlot := s.slot, slot := .dma code, busReq := true } := by
  unfold startTransfer
  split
  · rename_i h
    exact ⟨fun e => by injection e, fun e => by simp [h] at e⟩
  · rename_i h
    refine ⟨fun e => ⟨by simpa using h, (Host.Outcome.next.inj e).symm⟩, fun e => congrArg _ e.2.symm⟩

end Sys2Proof.Machine
end

