-- ==== Sys2Proof/Laws/Cycles.lean ====
section
/-! SUPPORT. What the handlers of a host cycle can do to the state, and the host cycle as a whole. -/

namespace Sys2Proof.Machine

/-- What a read handler can do with the sample `(c, a)`: nothing in scope, or the STATUS read at its index; a cartridge
variant may write its own state and lines (42_dispatch.md R136). -/
def ReadEffect (c : Ctrl) (a : Addr) (s u : State) (v : Option Byte) : Prop :=
  ∃ f irq k l, u = { s with reg := f, irqOut := irq, cart := k, cartLines := l } ∧
    (f = s.reg ∧ irq = s.irqOut ∨
      f = { s.reg with status := s.reg.status &&& 0x1F } ∧ irq = false ∧ v = some (s.reg.status ||| 0x10) ∧
        c.io2 = true ∧ indexOf a = 0)

/-- What a write handler can do: registers other than STATUS, their shadow, and a trigger; a cartridge variant may write its
own state and lines (42_dispatch.md R137). -/
def WriteEffect (s u : State) : Prop :=
  ∃ f sh slot saved bus k l,
    u = { s with
      reg := f, shadow := sh, slot := slot, savedSlot := saved, busReq := bus, cart := k, cartLines := l } ∧
    f.status = s.reg.status ∧
    (slot = s.slot ∧ saved = s.savedSlot ∧ bus = s.busReq ∨
      slotIsDma s.slot = false ∧ saved = s.slot ∧ bus = true ∧ ∃ type, slot = .dma (initialCode type))

/-- An index reads as STATUS, or reads without a side effect (20_memory.md R67). -/
theorem readIndex_cases (i : BitVec 5) (s : State) :
    (i = 0 ∧ readIndex i s = rdStatus s) ∨ (readIndex i s).2 = s := by
  unfold readIndex
  split
  · exact .inl ⟨BitVec.eq_of_toNat_eq (by assumption), rfl⟩
  all_goals first | exact .inr rfl | skip
  split <;> exact .inr rfl

theorem readIndex_effect (c : Ctrl) (a : Addr) (s : State) (hc : c.io2 = true) :
    ReadEffect c a s (readIndex (indexOf a) s).2 (some (readIndex (indexOf a) s).1) := by
  rcases readIndex_cases (indexOf a) s with ⟨hi, h⟩ | h
  · rw [h]
    exact ⟨_, _, s.cart, s.cartLines, rfl, .inr ⟨rfl, rfl, rfl, hc, hi⟩⟩
  · exact ⟨s.reg, s.irqOut, s.cart, s.cartLines, h, .inl ⟨rfl, rfl⟩⟩

theorem reuRead_effect (c : Ctrl) (a : Addr) (s : State) :
    ReadEffect c a s (reuRead c a s).2 (reuRead c a s).1 := by
  unfold reuRead
  split
  · exact readIndex_effect c a s (by assumption)
  · exact ⟨s.reg, s.irqOut, s.cart, s.cartLines, rfl, .inl ⟨rfl, rfl⟩⟩

theorem pairRead_effect (h : Pair) (c : Ctrl) (a : Addr) (s : State) :
    ReadEffect c a s (pairRead h c a s).2 (pairRead h c a s).1 := by
  cases h with
  | reu => exact reuRead_effect c a s
  | cart n => exact ⟨s.reg, s.irqOut, _, _, rfl, .inl ⟨rfl, rfl⟩⟩

theorem compositeRead_effect (h : Pair) (c : Ctrl) (a : Addr) (s : State) :
    ReadEffect c a s (compositeRead h c a s).2 (compositeRead h c a s).1 := by
  have h1 := pairRead_effect h c a s
  unfold compositeRead
  split
  · rename_i e
    rw [e] at h1
    exact h1
  · rename_i t e
    rw [e] at h1
    obtain ⟨f, irq, k, l, e1, c1⟩ := h1
    obtain ⟨f', irq', k', l', e2, c2⟩ := reuRead_effect c a t
    have hf : f = s.reg ∧ irq = s.irqOut := c1.resolve_right fun x => by simp at x
    have et : t = { s with cart := k, cartLines := l } := by
      rw [show t = _ from e1, hf.1, hf.2]
    refine ⟨f', irq', k', l', ?_, ?_⟩
    · rw [e2, et]
    · rw [et] at c2 ⊢
      exact c2

theorem startTransfer_effect {type : BitVec 2} {s t : State} (h : startTransfer (initialCode type) s = .next t) :
    WriteEffect s t := by
  obtain ⟨h1, h2⟩ := startTransfer_eq_next.1 h
  exact ⟨s.reg, s.shadow, _, _, _, s.cart, s.cartLines, h2, rfl, .inr ⟨h1, rfl, rfl, type, rfl⟩⟩

/-- The shared register write touches the register file, except STATUS, and its shadow only. -/
theorem regWrite_eq (r : Reg) (d : Byte) (s : State) :
    ∃ f sh, regWrite r d s = { s with reg := f, shadow := sh } ∧ f.status = s.reg.status := by
  cases r <;> exact ⟨_, _, rfl, rfl⟩

theorem WriteEffect.refl (s : State) : WriteEffect s s :=
  ⟨s.reg, s.shadow, s.slot, s.savedSlot, s.busReq, s.cart, s.cartLines, rfl, rfl, .inl ⟨rfl, rfl, rfl⟩⟩

theorem regWrite_effect (r : Reg) (d : Byte) (s : State) : WriteEffect s (regWrite r d s) := by
  obtain ⟨f, sh, e, hs⟩ := regWrite_eq r d s
  exact ⟨f, sh, s.slot, s.savedSlot, s.busReq, s.cart, s.cartLines, e, hs, .inl ⟨rfl, rfl, rfl⟩⟩

/-- Two effects in a row are one. -/
theorem WriteEffect.trans {s t u : State} (h1 : WriteEffect s t) (h2 : WriteEffect t u) (h : t.slot = s.slot)
    (h' : t.savedSlot = s.savedSlot) (h'' : t.busReq = s.busReq) : WriteEffect s u := by
  obtain ⟨f, sh, sl, sv, b, k, l, e, c1, _⟩ := h1
  obtain ⟨f', sh', sl', sv', b', k', l', e', c1', c2'⟩ := h2
  refine ⟨f', sh', sl', sv', b', k', l', ?_, ?_, ?_⟩
  · rw [e', e]
  · rw [c1', e]
    exact c1
  · rw [h, h', h''] at c2'
    exact c2'

theorem wrCommand_effect {d : Byte} {s t : State} (h : wrCommand d s = .next t) : WriteEffect s t := by
  unfold wrCommand at h
  split at h
  · obtain ⟨f, sh, e, hs⟩ := regWrite_eq .command d s
    exact (regWrite_effect .command d s).trans (startTransfer_effect h) (by rw [e]) (by rw [e]) (by rw [e])
  · exact Host.Outcome.next.inj h ▸ regWrite_effect .command d s

theorem writeIndex_effect {i : BitVec 5} {d : Byte} {s t : State} (h : writeIndex i d s = .next t) :
    WriteEffect s t := by
  unfold writeIndex at h
  split at h
  · exact Host.Outcome.next.inj h ▸ .refl s
  · exact wrCommand_effect h
  · exact Host.Outcome.next.inj h ▸ regWrite_effect _ d s
  · exact Host.Outcome.next.inj h ▸ regWrite_effect _ d s
  · exact Host.Outcome.next.inj h ▸ regWrite_effect _ d s
  · exact Host.Outcome.next.inj h ▸ regWrite_effect _ d s
  · exact Host.Outcome.next.inj h ▸ regWrite_effect _ d s
  · exact Host.Outcome.next.inj h ▸ regWrite_effect _ d s
  · exact Host.Outcome.next.inj h ▸ regWrite_effect _ d s
  · exact Host.Outcome.next.inj h ▸ regWrite_effect _ d s
  · exact Host.Outcome.next.inj h ▸ regWrite_effect _ d s
  · exact Host.Outcome.next.inj h ▸ .refl s
  · split at h <;> exact Host.Outcome.next.inj h ▸ .refl s

theorem wrFf00_effect {s t : State} (h : wrFf00 s = .next t) : WriteEffect s t := by
  unfold wrFf00 at h
  split at h
  · exact startTransfer_effect h
  · exact Host.Outcome.next.inj h ▸ .refl s

theorem reuWrite_effect {c : Ctrl} {a : Addr} {d : Byte} {s : State} {r : Bool × State}
    (h : reuWrite c a d s = .next r) : WriteEffect s r.2 := by
  unfold reuWrite at h
  split at h
  · obtain ⟨t, h1, h2⟩ := andThen_eq_next.1 h
    exact Host.Outcome.next.inj h2 ▸ writeIndex_effect h1
  · split at h
    · obtain ⟨t, h1, h2⟩ := andThen_eq_next.1 h
      exact Host.Outcome.next.inj h2 ▸ wrFf00_effect h1
    · exact Host.Outcome.next.inj h ▸ .refl s

theorem pairWrite_effect {h : Pair} {c : Ctrl} {a : Addr} {d : Byte} {s : State} {r : Bool × State}
    (e : pairWrite h c a d s = .next r) : WriteEffect s r.2 := by
  cases h with
  | reu => exact reuWrite_effect e
  | cart n =>
    refine Host.Outcome.next.inj e ▸ ?_
    exact ⟨s.reg, s.shadow, s.slot, s.savedSlot, s.busReq, _, _, rfl, rfl, .inl ⟨rfl, rfl, rfl⟩⟩

/-- With no transfer running, the REU write handler answers. -/
theorem reuWrite_next (c : Ctrl) (a : Addr) (d : Byte) {s : State} (hs : slotIsDma s.slot = false) :
    ∃ r, reuWrite c a d s = .next r := by
  have start : ∀ (code : BitVec 3) (t : State), slotIsDma t.slot = false → ∃ u, startTransfer code t = .next u :=
    fun code t ht => ⟨_, startTransfer_eq_next.2 ⟨ht, rfl⟩⟩
  have index : ∀ i, ∃ t, writeIndex i d s = .next t := by
    intro i
    unfold writeIndex
    split
    case h_2 =>
      unfold wrCommand
      split
      · obtain ⟨f, sh, e, _⟩ := regWrite_eq .command d s
        exact start _ _ (by rw [e]; exact hs)
      · exact ⟨_, rfl⟩
    all_goals first | exact ⟨_, rfl⟩ | skip
    split <;> exact ⟨_, rfl⟩
  unfold reuWrite
  split
  · obtain ⟨t, ht⟩ := index (indexOf a)
    rw [ht]
    exact ⟨_, rfl⟩
  · split
    · unfold wrFf00
      split
      · obtain ⟨t, ht⟩ := start (initialCode (typeBits s.reg.command)) s hs
        rw [show trigger s = _ from ht]
        exact ⟨_, rfl⟩
      · exact ⟨_, rfl⟩
    · exact ⟨_, rfl⟩

theorem pairWrite_next (h : Pair) (c : Ctrl) (a : Addr) (d : Byte) {s : State} (hs : slotIsDma s.slot = false) :
    ∃ r, pairWrite h c a d s = .next r := by
  cases h with
  | reu => exact reuWrite_next c a d hs
  | cart n => exact ⟨_, rfl⟩

/-- A write the REU pair does not handle changes nothing (43_reu_registers.md R179). -/
theorem reuWrite_declined {c : Ctrl} {a : Addr} {d : Byte} {s u : State} (h : reuWrite c a d s = .next (false, u)) :
    u = s := by
  unfold reuWrite at h
  split at h
  · obtain ⟨t, -, h2⟩ := andThen_eq_next.1 h
    simp at h2
  · split at h
    · obtain ⟨t, h1, h2⟩ := andThen_eq_next.1 h
      injection h2 with h2
      obtain ⟨h3, rfl⟩ := Prod.mk.inj h2
      unfold wrFf00 at h1
      rw [h3, if_neg (by simp)] at h1
      exact (Host.Outcome.next.inj h1).symm
    · exact (Prod.mk.inj (Host.Outcome.next.inj h)).2.symm

/-- A primary pair that does not handle a write leaves the trigger state alone, and STATUS in any case. -/
theorem pairWrite_declined {h : Pair} {c : Ctrl} {a : Addr} {d : Byte} {s u : State}
    (e : pairWrite h c a d s = .next (false, u)) : ∃ k l, u = { s with cart := k, cartLines := l } := by
  cases h with
  | reu => exact ⟨s.cart, s.cartLines, reuWrite_declined e⟩
  | cart n => exact ⟨_, _, ((Prod.mk.inj (Host.Outcome.next.inj e)).2).symm⟩

theorem compositeWrite_effect {h : Pair} {c : Ctrl} {a : Addr} {d : Byte} {s : State} {r : Bool × State}
    (e : compositeWrite h c a d s = .next r) : WriteEffect s r.2 := by
  obtain ⟨⟨b, u⟩, h1, h2⟩ := andThen_eq_next.1 e
  have eff := pairWrite_effect h1
  cases b with
  | true => exact Host.Outcome.next.inj h2 ▸ eff
  | false =>
    obtain ⟨k, l, eu⟩ := pairWrite_declined h1
    exact eff.trans (reuWrite_effect h2) (by simp [eu]) (by simp [eu]) (by simp [eu])

theorem compositeWrite_next (h : Pair) (c : Ctrl) (a : Addr) (d : Byte) {s : State} (hs : slotIsDma s.slot = false) :
    ∃ r, compositeWrite h c a d s = .next r := by
  obtain ⟨⟨b, u⟩, h1⟩ := pairWrite_next h c a d hs
  unfold compositeWrite
  rw [h1]
  cases b with
  | true => exact ⟨_, rfl⟩
  | false =>
    obtain ⟨k, l, eu⟩ := pairWrite_declined h1
    exact reuWrite_next c a d (by simpa [eu] using hs)

/-! ### Cycle words and register operations -/

/-- The fields of the cycle word (30_encoding.md R83). -/
theorem wordOf_fields (a : Addr) (c : Ctrl) : (wordOf a c).getLsbD 17 = c.io2 ∧ (wordOf a c).getLsbD 16 = c.rw ∧
    (wordOf a c).extractLsb' 0 16 = a ∧ (wordOf a c).extractLsb' 0 5 = indexOf a := by
  have e : ∀ k, (wordOf a c).getLsbD k =
      if k < 16 then a.getLsbD k else if k - 16 < 1 then (BitVec.ofBool c.rw).getLsbD (k - 16)
        else (BitVec.ofBool c.io2).getLsbD (k - 16 - 1) := by
    intro k
    show (BitVec.ofBool c.io2 ++ BitVec.ofBool c.rw ++ a : BitVec (1 + 1 + 16)).getLsbD k = _
    rw [BitVec.getLsbD_append, BitVec.getLsbD_append]
  refine ⟨?_, ?_, ?_, ?_⟩
  · rw [e]
    cases c.io2 <;> rfl
  · rw [e]
    cases c.rw <;> rfl
  · ext i hi
    rw [BitVec.getElem_extractLsb', e, Nat.zero_add, if_pos hi, BitVec.getLsbD_eq_getElem hi]
  · unfold indexOf
    ext i hi
    rw [BitVec.getElem_extractLsb', BitVec.getElem_extractLsb', e, Nat.zero_add, if_pos (by omega)]

/-- The fields of a word written as two bits, the mirror bits and the index (30_encoding.md R83, R85). -/
theorem registerWord_fields (b : BitVec 2) (m : BitVec 11) (i : BitVec 5) :
    let w : CycleWord := b ++ m ++ i
    w.getLsbD 17 = b.getLsbD 1 ∧ w.getLsbD 16 = b.getLsbD 0 ∧ w.extractLsb' 5 11 = m ∧ w.extractLsb' 0 5 = i := by
  intro w
  have e : ∀ k, w.getLsbD k =
      if k < 5 then i.getLsbD k else if k - 5 < 11 then m.getLsbD (k - 5) else b.getLsbD (k - 5 - 11) := by
    intro k
    show (b ++ m ++ i : BitVec (2 + 11 + 5)).getLsbD k = _
    rw [BitVec.getLsbD_append, BitVec.getLsbD_append]
  refine ⟨e 17, e 16, ?_, ?_⟩
  · ext k hk
    rw [BitVec.getElem_extractLsb', e, if_neg (by omega), if_pos (by omega), Nat.add_sub_cancel_left,
      BitVec.getLsbD_eq_getElem hk]
  · ext k hk
    rw [BitVec.getElem_extractLsb', e, Nat.zero_add, if_pos hk, BitVec.getLsbD_eq_getElem hk]

/-- A read word of the register window decodes by its index. -/
theorem decode_readWord (m : BitVec 11) (i : BitVec 5) :
    decode (.hostCyc (3#2 ++ m ++ i)) = .ok (decodeRead m i) := by
  obtain ⟨h17, h16, hm, hi⟩ := registerWord_fields 3#2 m i
  show decodeHostCyc _ = _
  rw [decodeHostCyc, h17, h16, hm, hi]
  rfl

/-- A write word of the register window decodes by its index. -/
theorem decode_writeWord (m : BitVec 11) (i : BitVec 5) :
    decode (.hostCyc (2#2 ++ m ++ i)) = .ok (decodeWrite m i) := by
  obtain ⟨h17, h16, hm, hi⟩ := registerWord_fields 2#2 m i
  show decodeHostCyc _ = _
  rw [decodeHostCyc, h17, h16, hm, hi]
  rfl

/-- A decoded register read is the read of its index. -/
theorem exec_decodeRead (m : BitVec 11) (i : BitVec 5) (s : State) :
    exec (decodeRead m i) s = returnByte (readIndex i s) := by
  obtain ⟨n⟩ := i
  fin_cases n <;> rfl

/-- A decoded register write is the write of its index with the sampled data byte. -/
theorem exec_decodeWrite (m : BitVec 11) (i : BitVec 5) (s : State) :
    exec (decodeWrite m i) s = returnNothing (writeIndex i (dataRead s) s) := by
  obtain ⟨n⟩ := i
  fin_cases n <;> rfl

/-! ### The host cycle -/

@[simp] theorem sampled_addrRead (s : State) : addrRead (sampled s) = addrRead s := rfl

@[simp] theorem sampled_dataRead (s : State) : dataRead (sampled s) = dataRead s := rfl

@[simp] theorem sampled_ctrlRead (s : State) : ctrlRead (sampled s) = ctrlRead s := rfl

/-- The sampled state: counter, timer, pending flag and observation, and nothing else. -/
theorem sampled_eq (s : State) : ∃ n m, sampled s =
    { s with cnt := n, timer := m, cycIrqPending := false, obs := ⟨some (currentWord s), none, none, none⟩ } :=
  ⟨_, _, rfl⟩

/-- The check of a timed wait is that it keeps its window (41_phase_tracker.md R128). -/
theorem waitFault_inWindow {edge r : Time} {call : Nat} {s : State} {tm : CycleTiming} (h : s.inp.timing = some tm) :
    waitFault edge r call s = none ↔ InWindow s tm r call := by
  rw [waitFault_eq_none h]
  unfold InWindow lateCall
  cases nominal s.profile <;> simp

theorem awaitPhaseHigh_armed {s : State} (h : refsReady s = true) (ht : s.inp.timing = none) :
    awaitPhaseHigh s = .next (waitUntil (startEdge s + s.ref.high) (enterHandler s)) := waitRef_armed h ht

/-- What a host cycle does once it has sampled the bus: a read, answered or declined, or a write. -/
theorem hostCycle_sampled {rd : Ctrl → Addr → State → Option Byte × State} {wr : Ctrl → Addr → Byte → State → OutV Bool}
    {s u : State} (hc : contended s = none) (h : awaitPhaseHigh s = .next u) :
    hostCycle rd wr s =
      if (ctrlRead s).rw then
        match rd (ctrlRead s) (addrRead s) (sampled s) with
        | (some v, u) => andThen (answerRead (startEdge s) v u) fun w => .next (w.setRet .none)
        | (none, u) => .next (u.setRet .none)
      else
        andThen (wr (ctrlRead s) (addrRead s) (dataRead s) (sampled s)) fun r =>
          .next { r.2 with ret := .none, obs := { r.2.obs with data := some (dataRead s) } } := by
  obtain ⟨-, -, rfl⟩ := waitRef_eq_next.1 h
  unfold hostCycle contention
  rw [hc, h]
  rfl

/-- An untimed host cycle with armed references: a read, answered or declined, or a write. -/
theorem hostCycle_armed {rd : Ctrl → Addr → State → Option Byte × State} {wr : Ctrl → Addr → Byte → State → OutV Bool}
    {s : State} (h : refsReady s = true) (hc : contended s = none) (ht : s.inp.timing = none) :
    hostCycle rd wr s =
      if (ctrlRead s).rw then
        match rd (ctrlRead s) (addrRead s) (sampled s) with
        | (some v, u) => andThen (answerRead (startEdge s) v u) fun w => .next (w.setRet .none)
        | (none, u) => .next (u.setRet .none)
      else
        andThen (wr (ctrlRead s) (addrRead s) (dataRead s) (sampled s)) fun r =>
          .next { r.2 with ret := .none, obs := { r.2.obs with data := some (dataRead s) } } :=
  hostCycle_sampled hc (awaitPhaseHigh_armed h ht)

/-- An answered read in an untimed cycle, where the data bus may be driven. -/
theorem answerRead_next {edge : Time} {v : Byte} {u : State} (h : u.inp.ctrl.rw = true ∨ u.busReq = true)
    (ha : refsReady u = true) (ht : u.inp.timing = none) :
    (andThen (answerRead edge v u) fun w => .next (w.setRet .none)) = (.next (answered edge v u) : Out) := by
  unfold answerRead
  rw [(dataDirOut_eq_next (s := dataDrive v u)).2 ⟨h, rfl⟩, andThen_next, waitRef_armed (by exact ha) (by exact ht),
    andThen_next, releaseData_untimed (by exact ht)]
  rfl

theorem answerRead_eq_next {edge : Time} {v : Byte} {u t : State}
    (h : (andThen (answerRead edge v u) fun w => .next (w.setRet .none)) = (.next t : Out)) :
    (u.inp.ctrl.rw = true ∨ u.busReq = true) ∧ t = answered edge v u := by
  obtain ⟨w, h1, h⟩ := andThen_eq_next.1 h
  obtain ⟨x, h2, h1⟩ := andThen_eq_next.1 h1
  obtain ⟨hc, rfl⟩ := dataDirOut_eq_next.1 h2
  obtain ⟨y, h3, h1⟩ := andThen_eq_next.1 h1
  obtain ⟨-, -, rfl⟩ := waitRef_eq_next.1 h3
  obtain ⟨z, h4, h1⟩ := andThen_eq_next.1 h1
  obtain ⟨-, rfl⟩ := releaseData_eq_next.1 h4
  obtain rfl := Host.Outcome.next.inj h1
  exact ⟨hc, (Host.Outcome.next.inj h).symm⟩

end Sys2Proof.Machine
end

