-- ==== Sys2Proof/Laws/Dma.lean ====
section
/-! SUPPORT. What the shared parts of a DMA cycle do: the address step, the byte's tail, FINALIZE, the two bus accesses. -/

namespace Sys2Proof.Machine

/-- Masking is the remainder modulo REU_SIZE (10_state.md R51). -/
theorem and_mask_toNat (p : PerAddr) (size : ReuSize) : (p &&& size.mask).toNat = p.toNat % size.bytes := by
  rw [BitVec.toNat_and]
  cases size
  · exact Nat.and_two_pow_sub_one_eq_mod p.toNat 16
  · exact Nat.and_two_pow_sub_one_eq_mod p.toNat 17
  · exact Nat.and_two_pow_sub_one_eq_mod p.toNat 18
  · exact Nat.and_two_pow_sub_one_eq_mod p.toNat 19

theorem perOffset_eq (s : State) : (s.reg.perAddr s.cfg.reuSize).toNat = perOffset s := and_mask_toNat _ _

theorem perRead_eq (s : State) : perRead s = memRead s.mem (perOffset s) := by
  unfold perRead
  rw [perOffset_eq]

/-- ADV_H writes the register file only. -/
theorem advanceHost_eq (s : State) : advanceHost s =
    { s with reg := if s.reg.incH then s.reg.putHostAddr (s.reg.hostAddr + 1) else s.reg } := by
  unfold advanceHost
  cases s.reg.incH <;> rfl

/-- ADV_P writes the register file only. -/
theorem advancePer_eq (s : State) : advancePer s =
    { s with reg :=
        if s.reg.incP then
          s.reg.putPerAddr ((s.reg.perAddr s.cfg.reuSize + 1) &&& s.cfg.reuSize.mask)
        else s.reg } := by
  unfold advancePer
  cases s.reg.incP <;> rfl

/-- ADV_H and ADV_P write the register file only. -/
theorem advance_eq (s : State) : advancePer (advanceHost s) = { s with reg := (advancePer (advanceHost s)).reg } := by
  rw [advancePer_eq, advanceHost_eq]

/-- The peripheral address one step on, modulo REU_SIZE. -/
theorem perAddr_succ (p : PerAddr) (size : ReuSize) :
    (((p &&& size.mask) + 1) &&& size.mask).toNat = (p.toNat % size.bytes + 1) % size.bytes := by
  have h : p.toNat % size.bytes + 1 < 2 ^ 24 := by
    have : p.toNat % size.bytes < size.bytes := Nat.mod_lt _ (by cases size <;> decide)
    have : size.bytes ≤ 524288 := by cases size <;> decide
    omega
  rw [and_mask_toNat, BitVec.toNat_add, and_mask_toNat]
  exact congrArg (· % size.bytes) (Nat.mod_eq_of_lt h)

/-- The register file that ADV_H and ADV_P leave (44_dma_sequencer.md R191, R192). -/
theorem advance_stepped (s : State) : Stepped s.cfg.reuSize s.reg (advancePer (advanceHost s)).reg := by
  have host : ∀ f : RegFile, f.acr.getLsbD 7 = false → f.incH = true := fun f h => by unfold RegFile.incH; rw [h]; rfl
  have host' : ∀ f : RegFile, f.acr.getLsbD 7 = true → f.incH = false := fun f h => by unfold RegFile.incH; rw [h]; rfl
  have per : ∀ f : RegFile, f.acr.getLsbD 6 = false → f.incP = true := fun f h => by unfold RegFile.incP; rw [h]; rfl
  have per' : ∀ f : RegFile, f.acr.getLsbD 6 = true → f.incP = false := fun f h => by unfold RegFile.incP; rw [h]; rfl
  have succ : ∀ f : RegFile, ((f.perAddr s.cfg.reuSize + 1) &&& s.cfg.reuSize.mask).toNat =
      ((f.bank ++ f.perHi ++ f.perLo).toNat % s.cfg.reuSize.bytes + 1) % s.cfg.reuSize.bytes :=
    fun f => perAddr_succ (f.bank ++ f.perHi ++ f.perLo) s.cfg.reuSize
  rw [advancePer_eq, advanceHost_eq]
  cases hH : s.reg.acr.getLsbD 7 <;> cases hP : s.reg.acr.getLsbD 6
  · have h2 : (s.reg.putHostAddr (s.reg.hostAddr + 1)).incP = true := per _ hP
    simp only [host _ hH, if_true, h2]
    refine ⟨?_, ?_, rfl, rfl, rfl, rfl, rfl, rfl⟩
    · rw [hH, if_neg (by simp)]
      exact append_halves _
    · rw [hP, if_neg (by simp)]
      exact Eq.trans (congrArg BitVec.toNat (append_thirds _)) (succ s.reg)
  · have h2 : (s.reg.putHostAddr (s.reg.hostAddr + 1)).incP = false := per' _ hP
    simp only [host _ hH, if_true, h2, Bool.false_eq_true, if_false]
    refine ⟨?_, ?_, rfl, rfl, rfl, rfl, rfl, rfl⟩
    · rw [hH, if_neg (by simp)]
      exact append_halves _
    · rw [hP, if_pos rfl]
      exact ⟨rfl, rfl, rfl⟩
  · simp only [host' _ hH, per _ hP, if_true, Bool.false_eq_true, if_false]
    refine ⟨?_, ?_, rfl, rfl, rfl, rfl, rfl, rfl⟩
    · rw [hH, if_pos rfl]
      rfl
    · rw [hP, if_neg (by simp)]
      exact Eq.trans (congrArg BitVec.toNat (append_thirds _)) (succ s.reg)
  · simp only [host' _ hH, per' _ hP, Bool.false_eq_true, if_false]
    refine ⟨?_, ?_, rfl, rfl, rfl, rfl, rfl, rfl⟩
    · rw [hH, if_pos rfl]
    · rw [hP, if_pos rfl]
      exact ⟨rfl, rfl, rfl⟩

/-- RELEASE_AND_RESTORE as one update (44_dma_sequencer.md R205). -/
theorem releaseAndRestore_eq (s : State) : releaseAndRestore s = { s with
    busReq := false
    addrDir := .input
    rwDir := .input
    dataDir := .input
    slot := s.savedSlot
    savedSlot := .none } := by
  unfold releaseAndRestore
  ext1 <;> simp

/-- IRQ_CHECK as one update (44_dma_sequencer.md R206). -/
theorem irqCheck_eq (s : State) : irqCheck s = { s with
    reg := { s.reg with
      status := if irqCondition s.reg.imr s.reg.status then s.reg.status ||| ipBit else s.reg.status }
    irqOut := if irqCondition s.reg.imr s.reg.status then true else s.irqOut } := by
  unfold irqCheck
  cases irqCondition s.reg.imr s.reg.status <;> rfl

/-- FINALIZE as one update of the register file, the interrupt line, the pins and the slots. -/
theorem finalize_eq (eob ve : Bool) (s : State) :
    let f := if autoloadBit s.reg.command then autoload s.reg s.shadow else s.reg
    let status := f.status ||| statusBits eob ve
    finalize eob ve s = { s with
      reg := { f with
        command := commandDone f.command
        status := if irqCondition f.imr status then status ||| ipBit else status }
      irqOut := if irqCondition f.imr status then true else s.irqOut
      busReq := false
      addrDir := .input
      rwDir := .input
      dataDir := .input
      slot := s.savedSlot
      savedSlot := .none } := by
  unfold finalize
  simp only []
  rw [irqCheck_eq, releaseAndRestore_eq]

/-- What FINALIZE leaves (44_dma_sequencer.md R203 to R206). -/
theorem finalize_finalized (eob ve : Bool) (s : State) : Finalized eob ve s.reg s (finalize eob ve s) := by
  have e2 : ∀ x : Byte, x ||| statusBits eob ve = x ||| (if eob then 0x40 else 0) ||| (if ve then 0x20 else 0) := by
    intro x
    unfold statusBits eobBit veBit
    exact (BitVec.or_assoc ..).symm
  have e3 : ∀ x y : Byte, (irqCondition x y = true) = (x.getLsbD 7 = true ∧ x &&& y &&& 0x60 ≠ 0) := by
    intro x y
    unfold irqCondition
    rw [Bool.and_eq_true, bne_iff_ne]
  rw [finalize_eq]
  unfold Finalized autoloadBit
  simp only [e2, e3]
  cases s.reg.command.getLsbD 5 <;> simp only [Bool.false_eq_true, if_false, if_true, autoload, and_true]
  all_goals exact ⟨rfl, rfl⟩

/-- The end of a byte without a mismatch (44_dma_sequencer.md R194), on a stepped register file. -/
theorem stepTail_cases (next : BitVec 3) (s : State) :
    (s.reg.length = 1 ∧ stepTail next s = finalize true false s) ∨
      (s.reg.length ≠ 1 ∧ stepTail next s = { decLength s with slot := .dma next }) := by
  unfold stepTail lastByte
  by_cases h : s.reg.length = 1
  · exact .inl ⟨h, if_pos (by simpa using h)⟩
  · exact .inr ⟨h, if_neg (by simpa using h)⟩

/-! ### What a DMA cycle can do -/

/-- How a DMA cycle can end: the transfer goes on, or FINALIZE has run. `u` is the state after the bus access. -/
def DmaEnd (u t : State) : Prop :=
  (∃ f code, t = { u with reg := f, slot := .dma code } ∧ f.status = u.reg.status ∧ code ≠ 4 ∧ code ≠ 5) ∨
  (∃ f irq, t = { u with
      reg := f, irqOut := irq, busReq := false, addrDir := .input, rwDir := .input, dataDir := .input
      slot := u.savedSlot, savedSlot := .none } ∧
    (∃ st, f.status = u.reg.status ||| st) ∧ (irq = u.irqOut ∨ irq = true ∧ f.status.getLsbD 7 = true))

theorem finalize_end (eob ve : Bool) (f : RegFile) (u : State) (h : f.status = u.reg.status) :
    DmaEnd u (finalize eob ve { u with reg := f }) := by
  have e := finalize_eq eob ve { u with reg := f }
  simp only [] at e
  have hg : ∀ b : Bool, (if b then autoload f u.shadow else f).status = u.reg.status := by
    intro b
    cases b <;> exact h
  specialize hg (autoloadBit f.command)
  generalize (if autoloadBit f.command then autoload f u.shadow else f) = g at e hg
  rw [hg] at e
  cases hc : irqCondition g.imr (u.reg.status ||| statusBits eob ve) <;> rw [hc] at e
  · exact .inr ⟨_, _, e, ⟨_, rfl⟩, .inl rfl⟩
  · refine .inr ⟨_, _, e, ⟨_, BitVec.or_assoc ..⟩, .inr ⟨rfl, ?_⟩⟩
    show (u.reg.status ||| statusBits eob ve ||| ipBit).getLsbD 7 = true
    rw [BitVec.getLsbD_or]
    simp [ipBit]

theorem continue_end (code : BitVec 3) (f : RegFile) (u : State) (h : f.status = u.reg.status) (h4 : code ≠ 4)
    (h5 : code ≠ 5) : DmaEnd u { decLength { u with reg := f } with slot := .dma code } :=
  .inl ⟨_, code, rfl, h, h4, h5⟩

theorem stepTail_end (code : BitVec 3) (f : RegFile) (u : State) (h : f.status = u.reg.status) (h4 : code ≠ 4)
    (h5 : code ≠ 5) : DmaEnd u (stepTail code { u with reg := f }) := by
  unfold stepTail
  split
  · exact finalize_end true false f u h
  · exact continue_end code f u h h4 h5

/-- The address steps leave STATUS alone. -/
theorem advance_status (s : State) : (advancePer (advanceHost s)).reg.status = s.reg.status :=
  (advance_stepped s).2.2.1

/-- The state after the accesses of a DMA cycle: time, the pins, the observation; the swap latch; and, in a state that
stores, one byte of peripheral memory. -/
def DmaAccess (stores : Bool) (s u : State) : Prop :=
  ∃ n m a rl dl dd o mm sw rm,
    u = { s with
      cnt := n, timer := m, cycIrqPending := false, addrLatch := a, addrDir := .output, rwLatch := rl, rwDir := .output
      dataLatch := dl, dataDir := dd, obs := o, mem := mm, swapLatch := sw, regionModified := rm } ∧
    m < 2 ^ s.cfg.timerBits ∧ o.word = none ∧ o.dmaAddr ≠ none ∧ o.data = none ∧ (dd = s.dataDir ∨ dd = .input) ∧
    (mm = s.mem ∨ stores = true ∧ ∃ v, mm = memWrite s.mem (perOffset s) v)

/-- What a DMA cycle can do: it needs the bus and the references, makes its accesses, and ends. -/
def DmaEffect (stores : Bool) (s t : State) : Prop :=
  s.busReq = true ∧ refsReady s = true ∧ ∃ u v, DmaAccess stores s u ∧ DmaEnd u v ∧ t = v.setRet .none

/-- A DMA cycle answers only with armed references, through its body. -/
theorem dmaCycle_eq_next {body : Time → State → Out} {s t : State} (h : dmaCycle body s = .next t) :
    refsReady s = true ∧ ∃ v,
      body (startEdge s) (waitUntil (startEdge s + s.ref.dmaHigh) (enterHandler s)) = .next v ∧ t = v.setRet .none := by
  obtain ⟨u, h1, h2⟩ := andThen_eq_next.1 h
  obtain ⟨ha, -, rfl⟩ := waitRef_eq_next.1 h1
  obtain ⟨v, h3, h4⟩ := andThen_eq_next.1 h2
  exact ⟨ha, v, h3, (Host.Outcome.next.inj h4).symm⟩

/-- A reserved sequencer code never completes (60_exceptions.md R228). -/
theorem reservedCycle_ne_next {code : BitVec 3} {s t : State} : dmaCycle (reservedCycle code) s ≠ .next t := by
  intro h
  obtain ⟨-, v, h, -⟩ := dmaCycle_eq_next h
  cases h

/-- A DMA read answers only with the bus owned. -/
theorem hostBusRead_eq_next {edge : Time} {a : Addr} {s : State} {r : Byte × State}
    (h : hostBusRead edge a s = .next r) :
    s.busReq = true ∧ r.1 = dataRead s ∧ ∃ n m, m < 2 ^ s.cfg.timerBits ∧ r.2 = { s with
      cnt := n, timer := m, addrLatch := a, addrDir := .output, rwLatch := true, rwDir := .output
      obs := { s.obs with dmaAddr := some a } } := by
  obtain ⟨s1, h1, h⟩ := andThen_eq_next.1 h
  obtain ⟨hb, rfl⟩ := addrDirOut_eq_next.1 h1
  obtain ⟨s2, h2, h⟩ := andThen_eq_next.1 h
  obtain ⟨-, rfl⟩ := rwDrive_eq_next.1 h2
  obtain ⟨s3, h3, h⟩ := andThen_eq_next.1 h
  obtain ⟨-, -, rfl⟩ := waitRef_eq_next.1 h3
  obtain rfl := Host.Outcome.next.inj h
  exact ⟨hb, rfl, _, _, Nat.mod_lt _ (Nat.two_pow_pos _), rfl⟩

/-- A DMA write answers only with the bus owned. -/
theorem hostBusWrite_eq_next {edge : Time} {a : Addr} {v : Byte} {s t : State}
    (h : hostBusWrite edge a v s = .next t) :
    s.busReq = true ∧ ∃ n m, m < 2 ^ s.cfg.timerBits ∧ t = { s with
      cnt := n, timer := m, addrLatch := a, addrDir := .output, rwLatch := false, rwDir := .output
      dataLatch := v, dataDir := .input, obs := { s.obs with dmaAddr := some a, driven := some v } } := by
  obtain ⟨s1, h1, h⟩ := andThen_eq_next.1 h
  obtain ⟨hb, rfl⟩ := addrDirOut_eq_next.1 h1
  obtain ⟨s2, h2, h⟩ := andThen_eq_next.1 h
  obtain ⟨-, rfl⟩ := rwDrive_eq_next.1 h2
  obtain ⟨s3, h3, h⟩ := andThen_eq_next.1 h
  obtain ⟨-, rfl⟩ := dataDirOut_eq_next.1 h3
  obtain ⟨s4, h4, h⟩ := andThen_eq_next.1 h
  obtain ⟨-, -, rfl⟩ := waitRef_eq_next.1 h4
  obtain ⟨s5, h5, h⟩ := andThen_eq_next.1 h
  obtain ⟨-, rfl⟩ := releaseData_eq_next.1 h5
  obtain rfl := Host.Outcome.next.inj h
  exact ⟨hb, _, _, Nat.mod_lt _ (Nat.two_pow_pos _), rfl⟩

theorem dmaFetch_effect {s t : State} (h : execDmaFetch s = .next t) : DmaEffect false s t := by
  obtain ⟨ha, v, h1, e⟩ := dmaCycle_eq_next h
  obtain ⟨w, h2, h3⟩ := andThen_eq_next.1 h1
  obtain ⟨hb, n, m, hm, ew⟩ := hostBusWrite_eq_next h2
  refine ⟨hb, ha, w, v, ⟨n, m, _, _, _, _, _, _, _, _, ew, hm, rfl, by simp, rfl, .inr rfl, .inl rfl⟩, ?_, e⟩
  obtain rfl := Host.Outcome.next.inj h3
  have e2 := advance_eq w
  rw [e2]
  exact stepTail_end _ _ w (advance_status w) (by decide) (by decide)

theorem dmaSwap1_effect {s t : State} (h : execDmaSwap1 s = .next t) : DmaEffect false s t := by
  obtain ⟨ha, v, h1, e⟩ := dmaCycle_eq_next h
  obtain ⟨r, h2, h3⟩ := andThen_eq_next.1 h1
  obtain ⟨hb, hd, n, m, hm, er⟩ := hostBusRead_eq_next h2
  obtain rfl := Host.Outcome.next.inj h3
  refine ⟨hb, ha, { r.2 with swapLatch := r.1 }, _, ⟨n, m, _, _, _, _, _, _, _, _, by rw [er]; rfl, hm, rfl, by simp, rfl,
    .inl rfl, .inl rfl⟩, ?_, e⟩
  exact .inl ⟨_, swap2Code, rfl, rfl, by decide, by decide⟩

theorem dmaStash_effect {s t : State} (h : execDmaStash s = .next t) : DmaEffect true s t := by
  obtain ⟨ha, v, h1, e⟩ := dmaCycle_eq_next h
  obtain ⟨r, h2, h3⟩ := andThen_eq_next.1 h1
  obtain ⟨hb, hd, n, m, hm, er⟩ := hostBusRead_eq_next h2
  obtain rfl := Host.Outcome.next.inj h3
  have e2 : advancePer (perWrite r.1 (advanceHost r.2)) =
      { perWrite r.1 r.2 with reg := (advancePer (advanceHost r.2)).reg } := by
    rw [advancePer_eq, advanceHost_eq, advancePer_eq]
    unfold perWrite
    cases r.2.reg.incH <;> rfl
  refine ⟨hb, ha, perWrite r.1 r.2, _, ⟨n, m, _, _, _, _, _, _, _, _, by rw [er]; rfl, hm, rfl, by simp, rfl,
    .inl rfl, .inr ⟨rfl, r.1, ?_⟩⟩, ?_, e⟩
  · rw [← perOffset_eq]
    rfl
  · rw [e2]
    exact stepTail_end _ _ (perWrite r.1 r.2) (advance_status r.2) (by decide) (by decide)

theorem dmaSwap2_effect {s t : State} (h : execDmaSwap2 s = .next t) : DmaEffect true s t := by
  obtain ⟨ha, v, h1, e⟩ := dmaCycle_eq_next h
  obtain ⟨w, h2, h3⟩ := andThen_eq_next.1 h1
  obtain ⟨hb, n, m, hm, ew⟩ := hostBusWrite_eq_next h2
  obtain rfl := Host.Outcome.next.inj h3
  refine ⟨hb, ha, perWrite w.swapLatch w, _, ⟨n, m, _, _, _, _, _, _, _, _, by rw [ew]; rfl, hm, rfl, by simp, rfl,
    .inr rfl, .inr ⟨rfl, s.swapLatch, ?_⟩⟩, ?_, e⟩
  · rw [← perOffset_eq]
    rfl
  · rw [advance_eq (perWrite w.swapLatch w)]
    exact stepTail_end _ _ (perWrite w.swapLatch w) (advance_status _) (by decide) (by decide)

theorem dmaVerify_effect {s t : State} (h : execDmaVerify s = .next t) : DmaEffect false s t := by
  obtain ⟨ha, v, h1, e⟩ := dmaCycle_eq_next h
  obtain ⟨r, h2, h3⟩ := andThen_eq_next.1 h1
  obtain ⟨hb, hd, n, m, hm, er⟩ := hostBusRead_eq_next h2
  refine ⟨hb, ha, r.2, v, ⟨n, m, _, _, _, _, _, _, _, _, er, hm, rfl, by simp, rfl, .inl rfl, .inl rfl⟩, ?_, e⟩
  simp only [] at h3
  rw [advance_eq r.2] at h3
  have hs := advance_status r.2
  split at h3
  · exact Host.Outcome.next.inj h3 ▸ stepTail_end _ _ r.2 hs (by decide) (by decide)
  · split at h3
    · exact Host.Outcome.next.inj h3 ▸ finalize_end true true _ r.2 hs
    · exact Host.Outcome.next.inj h3 ▸ continue_end _ _ r.2 hs (by decide) (by decide)

theorem dmaVerifyErr_effect {s t : State} (h : execDmaVerifyErr s = .next t) : DmaEffect false s t := by
  obtain ⟨ha, v, h1, e⟩ := dmaCycle_eq_next h
  obtain ⟨r, h2, h3⟩ := andThen_eq_next.1 h1
  obtain ⟨hb, hd, n, m, hm, er⟩ := hostBusRead_eq_next h2
  refine ⟨hb, ha, r.2, v, ⟨n, m, _, _, _, _, _, _, _, _, er, hm, rfl, by simp, rfl, .inl rfl, .inl rfl⟩, ?_, e⟩
  simp only [] at h3
  rw [advance_eq r.2] at h3
  have hs := advance_status r.2
  split at h3
  · exact Host.Outcome.next.inj h3 ▸ finalize_end _ true _ r.2 hs
  · exact Host.Outcome.next.inj h3 ▸ finalize_end false true _ r.2 hs

end Sys2Proof.Machine
end

