-- ==== Sys2Proof/Laws/PerInstr.lean ====
section
/-! SUPPORT. The family TableWord: the encoded word of each operation lies in its row of spec/opcode_table.json. -/

namespace Sys2Proof.Laws.TableWord

/-- The match and mask of each operation's row, as spec/opcode_table.json gives them. -/
def row : Instr → Nat × Nat
  | .rdStatus _ => (0x30000, 0x3001f)
  | .rdCommand _ => (0x30001, 0x3001f)
  | .rdHostLo _ => (0x30002, 0x3001f)
  | .rdHostHi _ => (0x30003, 0x3001f)
  | .rdPerLo _ => (0x30004, 0x3001f)
  | .rdPerHi _ => (0x30005, 0x3001f)
  | .rdBank _ => (0x30006, 0x3001f)
  | .rdLenLo _ => (0x30007, 0x3001f)
  | .rdLenHi _ => (0x30008, 0x3001f)
  | .rdImr _ => (0x30009, 0x3001f)
  | .rdAcr _ => (0x3000a, 0x3001f)
  | .rdUnused0B _ => (0x3000b, 0x3001f)
  | .rdUnused0C0F _ _ => (0x3000c, 0x3001c)
  | .rdUnused101F _ _ => (0x30010, 0x30010)
  | .wrStatus _ => (0x20000, 0x3001f)
  | .wrCommand _ => (0x20001, 0x3001f)
  | .wrHostLo _ => (0x20002, 0x3001f)
  | .wrHostHi _ => (0x20003, 0x3001f)
  | .wrPerLo _ => (0x20004, 0x3001f)
  | .wrPerHi _ => (0x20005, 0x3001f)
  | .wrBank _ => (0x20006, 0x3001f)
  | .wrLenLo _ => (0x20007, 0x3001f)
  | .wrLenHi _ => (0x20008, 0x3001f)
  | .wrImr _ => (0x20009, 0x3001f)
  | .wrAcr _ => (0x2000a, 0x3001f)
  | .wrUnused0B _ => (0x2000b, 0x3001f)
  | .wrUnused0C0F _ _ => (0x2000c, 0x3001c)
  | .wrUnused101F _ _ => (0x20010, 0x30010)
  | .wrFf00 => (0xff00, 0x3ffff)
  | .cmdStash _ _ _ _ => (0x80, 0x83)
  | .cmdFetch _ _ _ _ => (0x81, 0x83)
  | .cmdSwap _ _ _ _ => (0x82, 0x83)
  | .cmdVerify _ _ _ _ => (0x83, 0x83)
  | .dmaStash => (0x0, 0x7)
  | .dmaFetch => (0x1, 0x7)
  | .dmaSwap1 => (0x2, 0x7)
  | .dmaSwap2 => (0x6, 0x7)
  | .dmaVerify => (0x3, 0x7)
  | .dmaVerifyErr => (0x7, 0x7)
  | .addrRead => (0x1, 0xff)
  | .addrDrive _ => (0x2, 0xff)
  | .addrDirIn => (0x3, 0xff)
  | .addrDirOut => (0x4, 0xff)
  | .dataRead => (0x5, 0xff)
  | .dataDrive _ => (0x6, 0xff)
  | .dataDirIn => (0x7, 0xff)
  | .dataDirOut => (0x8, 0xff)
  | .ctrlRead => (0x9, 0xff)
  | .busSample => (0xa, 0xff)
  | .rwDrive _ => (0xb, 0xff)
  | .rwRelease => (0xc, 0xff)
  | .busreqSet _ => (0xd, 0xff)
  | .irqSet _ => (0xe, 0xff)
  | .cartLinesSet _ => (0xf, 0xff)
  | .busSafeIdle => (0x10, 0xff)
  | .measureInterval => (0x20, 0xff)
  | .classifySample _ => (0x21, 0xff)
  | .classifyClock => (0x22, 0xff)
  | .waitValidClock => (0x23, 0xff)
  | .armRefs _ _ => (0x24, 0xff)
  | .now => (0x25, 0xff)
  | .resync => (0x26, 0xff)
  | .waitUntil _ => (0x27, 0xff)
  | .installHandler _ => (0x40, 0xff)
  | .enableInterface _ _ => (0x41, 0xff)
  | .disableInterface => (0x42, 0xff)
  | .cycleTerminal _ => (0x43, 0xff)
  | .cycleComposite _ => (0x44, 0xff)
  | .trigger => (0x60, 0xff)
  | .finalize _ _ => (0x61, 0xff)

/-- The word of an encoded operation agrees with a match on the bits of a mask. -/
def Matches (w : OpWord) (r : Nat × Nat) : Prop :=
  match w with
  | .hostCyc w => w &&& BitVec.ofNat 18 r.2 = BitVec.ofNat 18 r.1
  | .cmdType b => b &&& BitVec.ofNat 8 r.2 = BitVec.ofNat 8 r.1
  | .dmaState s => s &&& BitVec.ofNat 3 r.2 = BitVec.ofNat 3 r.1
  | .op8 n _ => n &&& BitVec.ofNat 8 r.2 = BitVec.ofNat 8 r.1

/-- The statement of the family. -/
def Statement (i : Instr) : Prop := Matches (encode i) (row i)

/-- The mirror bits lie outside the mask of a register row (30_encoding.md R86). -/
theorem mirror_masked (rw : Bool) (m : BitVec 11) (i : BitVec 5) :
    (1#1 ++ BitVec.ofBool rw ++ m ++ i : BitVec 18) &&& 0x3001F#18 =
      (1#1 ++ BitVec.ofBool rw ++ 0#11 ++ i : BitVec 18) := by
  ext k hk
  rw [BitVec.getElem_and]
  have h : (0x3001F#18)[k] = (decide (k < 5) || decide (16 ≤ k)) := by
    revert k; decide
  rw [h]
  simp only [BitVec.getElem_append]
  by_cases h1 : k < 5
  · simp [h1]
  · by_cases h2 : 16 ≤ k
    · have : ¬ k - 5 < 11 := by omega
      simp [h1, h2, this]
    · have : k - 5 < 11 := by omega
      simp [h1, h2, this]

theorem register_matches (rw : Bool) (m : BitVec 11) (i : BitVec 5) (a b : Nat)
    (h1 : 0x3001F#18 &&& BitVec.ofNat 18 b = BitVec.ofNat 18 b)
    (h2 : (1#1 ++ BitVec.ofBool rw ++ 0#11 ++ i : BitVec 18) &&& BitVec.ofNat 18 b = BitVec.ofNat 18 a) :
    Matches (registerWord rw m i) (a, b) := by
  show (1#1 ++ BitVec.ofBool rw ++ m ++ i : BitVec 18) &&& BitVec.ofNat 18 b = BitVec.ofNat 18 a
  rw [← h2, ← mirror_masked rw m i, BitVec.and_assoc, h1]

/-- A number lies in the row that matches it on all eight bits. -/
theorem op8_matches (n : Byte) (arg : Arg) : Matches (.op8 n arg) (n.toNat, 0xff) := by
  show n &&& BitVec.allOnes 8 = BitVec.ofNat 8 n.toNat
  rw [BitVec.and_allOnes, BitVec.ofNat_toNat, BitVec.setWidth_eq]

theorem rdStatus (m : BitVec 11) : Statement (.rdStatus m) :=
  register_matches true m _ _ _ (by decide) (by decide)

theorem rdCommand (m : BitVec 11) : Statement (.rdCommand m) :=
  register_matches true m _ _ _ (by decide) (by decide)

theorem rdHostLo (m : BitVec 11) : Statement (.rdHostLo m) :=
  register_matches true m _ _ _ (by decide) (by decide)

theorem rdHostHi (m : BitVec 11) : Statement (.rdHostHi m) :=
  register_matches true m _ _ _ (by decide) (by decide)

theorem rdPerLo (m : BitVec 11) : Statement (.rdPerLo m) :=
  register_matches true m _ _ _ (by decide) (by decide)

theorem rdPerHi (m : BitVec 11) : Statement (.rdPerHi m) :=
  register_matches true m _ _ _ (by decide) (by decide)

theorem rdBank (m : BitVec 11) : Statement (.rdBank m) :=
  register_matches true m _ _ _ (by decide) (by decide)

theorem rdLenLo (m : BitVec 11) : Statement (.rdLenLo m) :=
  register_matches true m _ _ _ (by decide) (by decide)

theorem rdLenHi (m : BitVec 11) : Statement (.rdLenHi m) :=
  register_matches true m _ _ _ (by decide) (by decide)

theorem rdImr (m : BitVec 11) : Statement (.rdImr m) :=
  register_matches true m _ _ _ (by decide) (by decide)

theorem rdAcr (m : BitVec 11) : Statement (.rdAcr m) :=
  register_matches true m _ _ _ (by decide) (by decide)

theorem rdUnused0B (m : BitVec 11) : Statement (.rdUnused0B m) :=
  register_matches true m _ _ _ (by decide) (by decide)

theorem rdUnused0C0F (m : BitVec 11) (sub : BitVec 2) : Statement (.rdUnused0C0F m sub) :=
  register_matches true m _ _ _ (by decide) (by revert sub; decide)

theorem rdUnused101F (m : BitVec 11) (sub : BitVec 4) : Statement (.rdUnused101F m sub) :=
  register_matches true m _ _ _ (by decide) (by revert sub; decide)

theorem wrStatus (m : BitVec 11) : Statement (.wrStatus m) :=
  register_matches false m _ _ _ (by decide) (by decide)

theorem wrCommand (m : BitVec 11) : Statement (.wrCommand m) :=
  register_matches false m _ _ _ (by decide) (by decide)

theorem wrHostLo (m : BitVec 11) : Statement (.wrHostLo m) :=
  register_matches false m _ _ _ (by decide) (by decide)

theorem wrHostHi (m : BitVec 11) : Statement (.wrHostHi m) :=
  register_matches false m _ _ _ (by decide) (by decide)

theorem wrPerLo (m : BitVec 11) : Statement (.wrPerLo m) :=
  register_matches false m _ _ _ (by decide) (by decide)

theorem wrPerHi (m : BitVec 11) : Statement (.wrPerHi m) :=
  register_matches false m _ _ _ (by decide) (by decide)

theorem wrBank (m : BitVec 11) : Statement (.wrBank m) :=
  register_matches false m _ _ _ (by decide) (by decide)

theorem wrLenLo (m : BitVec 11) : Statement (.wrLenLo m) :=
  register_matches false m _ _ _ (by decide) (by decide)

theorem wrLenHi (m : BitVec 11) : Statement (.wrLenHi m) :=
  register_matches false m _ _ _ (by decide) (by decide)

theorem wrImr (m : BitVec 11) : Statement (.wrImr m) :=
  register_matches false m _ _ _ (by decide) (by decide)

theorem wrAcr (m : BitVec 11) : Statement (.wrAcr m) :=
  register_matches false m _ _ _ (by decide) (by decide)

theorem wrUnused0B (m : BitVec 11) : Statement (.wrUnused0B m) :=
  register_matches false m _ _ _ (by decide) (by decide)

theorem wrUnused0C0F (m : BitVec 11) (sub : BitVec 2) : Statement (.wrUnused0C0F m sub) :=
  register_matches false m _ _ _ (by decide) (by revert sub; decide)

theorem wrUnused101F (m : BitVec 11) (sub : BitVec 4) : Statement (.wrUnused101F m sub) :=
  register_matches false m _ _ _ (by decide) (by revert sub; decide)

theorem wrFf00 : Statement (.wrFf00) := by
  unfold Statement Matches encode row; decide

theorem cmdStash (x a f : Bool) (r : BitVec 2) : Statement (.cmdStash x a f r) := by
  revert x a f r; unfold Statement Matches encode commandWord row; decide

theorem cmdFetch (x a f : Bool) (r : BitVec 2) : Statement (.cmdFetch x a f r) := by
  revert x a f r; unfold Statement Matches encode commandWord row; decide

theorem cmdSwap (x a f : Bool) (r : BitVec 2) : Statement (.cmdSwap x a f r) := by
  revert x a f r; unfold Statement Matches encode commandWord row; decide

theorem cmdVerify (x a f : Bool) (r : BitVec 2) : Statement (.cmdVerify x a f r) := by
  revert x a f r; unfold Statement Matches encode commandWord row; decide

theorem dmaStash : Statement (.dmaStash) := by
  unfold Statement Matches encode row; decide

theorem dmaFetch : Statement (.dmaFetch) := by
  unfold Statement Matches encode row; decide

theorem dmaSwap1 : Statement (.dmaSwap1) := by
  unfold Statement Matches encode row; decide

theorem dmaSwap2 : Statement (.dmaSwap2) := by
  unfold Statement Matches encode row; decide

theorem dmaVerify : Statement (.dmaVerify) := by
  unfold Statement Matches encode row; decide

theorem dmaVerifyErr : Statement (.dmaVerifyErr) := by
  unfold Statement Matches encode row; decide

theorem addrRead : Statement (.addrRead) := by
  unfold Statement Matches encode row; decide

theorem addrDrive (a : Addr) : Statement (.addrDrive a) := op8_matches 0x02#8 _

theorem addrDirIn : Statement (.addrDirIn) := by
  unfold Statement Matches encode row; decide

theorem addrDirOut : Statement (.addrDirOut) := by
  unfold Statement Matches encode row; decide

theorem dataRead : Statement (.dataRead) := by
  unfold Statement Matches encode row; decide

theorem dataDrive (v : Byte) : Statement (.dataDrive v) := op8_matches 0x06#8 _

theorem dataDirIn : Statement (.dataDirIn) := by
  unfold Statement Matches encode row; decide

theorem dataDirOut : Statement (.dataDirOut) := by
  unfold Statement Matches encode row; decide

theorem ctrlRead : Statement (.ctrlRead) := by
  unfold Statement Matches encode row; decide

theorem busSample : Statement (.busSample) := by
  unfold Statement Matches encode row; decide

theorem rwDrive (b : Bool) : Statement (.rwDrive b) := op8_matches 0x0b#8 _

theorem rwRelease : Statement (.rwRelease) := by
  unfold Statement Matches encode row; decide

theorem busreqSet (b : Bool) : Statement (.busreqSet b) := op8_matches 0x0d#8 _

theorem irqSet (b : Bool) : Statement (.irqSet b) := op8_matches 0x0e#8 _

theorem cartLinesSet (v : CartLines) : Statement (.cartLinesSet v) := op8_matches 0x0f#8 _

theorem busSafeIdle : Statement (.busSafeIdle) := by
  unfold Statement Matches encode row; decide

theorem measureInterval : Statement (.measureInterval) := by
  unfold Statement Matches encode row; decide

theorem classifySample (c : Option Nat) : Statement (.classifySample c) := op8_matches 0x21#8 _

theorem classifyClock : Statement (.classifyClock) := by
  unfold Statement Matches encode row; decide

theorem waitValidClock : Statement (.waitValidClock) := by
  unfold Statement Matches encode row; decide

theorem armRefs (p : Profile) (offset : Int) : Statement (.armRefs p offset) := op8_matches 0x24#8 _

theorem now : Statement (.now) := by
  unfold Statement Matches encode row; decide

theorem resync : Statement (.resync) := by
  unfold Statement Matches encode row; decide

theorem waitUntil (t : Time) : Statement (.waitUntil t) := op8_matches 0x27#8 _

theorem installHandler (h : Handler) : Statement (.installHandler h) := op8_matches 0x40#8 _

theorem enableInterface (mode : Handler) (offset : Int) : Statement (.enableInterface mode offset) := op8_matches 0x41#8 _

theorem disableInterface : Statement (.disableInterface) := by
  unfold Statement Matches encode row; decide

theorem cycleTerminal (h : Pair) : Statement (.cycleTerminal h) := op8_matches 0x43#8 _

theorem cycleComposite (h : Pair) : Statement (.cycleComposite h) := op8_matches 0x44#8 _

theorem trigger : Statement (.trigger) := by
  unfold Statement Matches encode row; decide

theorem finalize (eob ve : Bool) : Statement (.finalize eob ve) := op8_matches 0x61#8 _

end Sys2Proof.Laws.TableWord
end

