-- ==== Sys2Proof/Laws/Step.lean ====
section
/-! SUPPORT. What a step can do, event by event; a host cycle by the slot that serves it. -/

namespace Sys2Proof.Machine

/-- What a terminal or composite cycle can do. -/
def HostEffect (s t : State) : Prop :=
  refsReady s = true ∧ contended s = none ∧
    ((ctrlRead s).rw = true ∧
        (∃ v u, ReadEffect (ctrlRead s) (addrRead s) (sampled s) u (some v) ∧ t = answered (startEdge s) v u) ∨
      (ctrlRead s).rw = true ∧
        (∃ u, ReadEffect (ctrlRead s) (addrRead s) (sampled s) u none ∧ t = u.setRet .none) ∨
      (ctrlRead s).rw = false ∧ ∃ u, WriteEffect (sampled s) u ∧
        t = { u with ret := .none, obs := { u.obs with data := some (dataRead s) } })

theorem hostCycle_effect {rd : Ctrl → Addr → State → Option Byte × State}
    {wr : Ctrl → Addr → Byte → State → OutV Bool} {s t : State}
    (hrd : ∀ c a s, ReadEffect c a s (rd c a s).2 (rd c a s).1)
    (hwr : ∀ c a d s r, wr c a d s = .next r → WriteEffect s r.2) (h : hostCycle rd wr s = .next t) :
    HostEffect s t := by
  obtain ⟨hc, h1⟩ := unlessFault_eq_next.1 h
  have hc : contended s = none := Option.map_eq_none_iff.1 hc
  obtain ⟨u, h1, -⟩ := andThen_eq_next.1 h1
  rw [hostCycle_sampled hc h1] at h
  refine ⟨(waitRef_eq_next.1 h1).1, hc, ?_⟩
  cases hr : (ctrlRead s).rw
  · rw [hr, if_neg (by simp)] at h
    obtain ⟨r, h2, h3⟩ := andThen_eq_next.1 h
    exact .inr (.inr ⟨rfl, r.2, hwr _ _ _ _ _ h2, (Host.Outcome.next.inj h3).symm⟩)
  · rw [hr, if_pos rfl] at h
    have eff := hrd (ctrlRead s) (addrRead s) (sampled s)
    generalize rd (ctrlRead s) (addrRead s) (sampled s) = r at h eff
    rcases r with ⟨_ | v, u⟩
    · exact .inr (.inl ⟨rfl, u, eff, (Host.Outcome.next.inj h).symm⟩)
    · exact .inl ⟨rfl, v, u, eff, (answerRead_eq_next h).2⟩

theorem cycleTerminal_effect {h : Pair} {s t : State} (e : execCycleTerminal h s = .next t) : HostEffect s t :=
  hostCycle_effect (fun c a s => pairRead_effect h c a s) (fun _ _ _ _ _ e => pairWrite_effect e) e

theorem cycleComposite_effect {h : Pair} {s t : State} (e : execCycleComposite h s = .next t) : HostEffect s t :=
  hostCycle_effect (fun c a s => compositeRead_effect h c a s) (fun _ _ _ _ _ e => compositeWrite_effect e) e

/-- A sequencer code that runs is one of the six, and two of them store. -/
theorem dmaState_effect {code : BitVec 3} {s t : State} (h : runWord (.dmaState code) s = .next t) :
    ∃ stores, DmaEffect stores s t ∧ (stores = true → code = 0 ∨ code = 6) := by
  obtain ⟨n⟩ := code
  fin_cases n
  · exact ⟨true, dmaStash_effect h, fun _ => .inl rfl⟩
  · exact ⟨false, dmaFetch_effect h, by simp⟩
  · exact ⟨false, dmaSwap1_effect h, by simp⟩
  · exact ⟨false, dmaVerify_effect h, by simp⟩
  · exact absurd h reservedCycle_ne_next
  · exact absurd h reservedCycle_ne_next
  · exact ⟨true, dmaSwap2_effect h, fun _ => .inr rfl⟩
  · exact ⟨false, dmaVerifyErr_effect h, by simp⟩

/-- An untimed cycle faults at its start edge only where a bus is driven from both sides (40_bus_primitives.md R115). -/
theorem edgeContention_untimed {s : State} (h : s.inp.timing = none) (hc : contended s = none) :
    edgeContention s = none := by
  unfold edgeContention contention
  rw [hc, h]
  rfl

/-- An untimed cycle misses no match (60_exceptions.md R220). -/
theorem missedCycle_untimed {b : Bool} {s : State} (h : s.inp.timing = none) : missedCycle b s = none := by
  unfold missedCycle
  rw [h]

/-- An untimed handler does not overrun (60_exceptions.md R220). -/
theorem overrun_untimed {s u : State} (h : s.inp.timing = none) : overrun s u = none := by
  unfold overrun
  rw [h]

/-- Where a timed cycle's faults are not found, the cycle begins and is taken. -/
theorem hostClock_eq_next {c : HostCycle} {s t : State} :
    hostClock c s = .next t ↔ edgeContention (latchCycle c s) = none ∧
      (s.cycIrqEnable = false ∧ t = latchCycle c s ∨
        s.cycIrqEnable = true ∧ missedCycle s.cycIrqPending (latchCycle c s) = none ∧
          takeInterrupt (latchCycle c s) = .next t) := by
  show unlessFault _ _ = _ ↔ _
  rw [unlessFault_eq_next]
  refine and_congr_right fun _ => ?_
  have he : (latchCycle c s).cycIrqEnable = s.cycIrqEnable := rfl
  by_cases hen : s.cycIrqEnable = true
  · rw [if_pos (he.trans hen)]
    simp [unlessFault_eq_next, hen]
  · rw [if_neg fun h => hen (he.symm.trans h)]
    simpa [hen] using eq_comm

/-- A taken interrupt runs the slot's operation, and checks its end. -/
theorem takeInterrupt_eq_next {s t : State} :
    takeInterrupt s = .next t ↔
      ∃ w, handlerWord s.slot = some w ∧ runWord w s = .next t ∧ overrun s t = none := by
  unfold takeInterrupt
  cases handlerWord s.slot with
  | none => simp
  | some w =>
    simp only [andThen_eq_next, unlessFault_eq_next, Host.Outcome.next.injEq, Option.some.injEq, exists_eq_left']
    exact ⟨fun ⟨u, h, h1, e⟩ => e ▸ ⟨h, h1⟩, fun h => ⟨t, h.1, h.2, rfl⟩⟩

/-- What one host clock cycle can do. -/
theorem hostClock_cases {c : HostCycle} {s t : State} (h : hostClock c s = .next t) :
    (s.cycIrqEnable = false ∧ t = latchCycle c s) ∨
    (s.cycIrqEnable = true ∧ (∃ p, s.slot = .terminal p ∨ s.slot = .composite p) ∧ HostEffect (latchCycle c s) t) ∨
    (s.cycIrqEnable = true ∧ ∃ code stores, s.slot = .dma code ∧ DmaEffect stores (latchCycle c s) t ∧
      (stores = true → code = 0 ∨ code = 6)) := by
  obtain ⟨-, h | ⟨hen, -, h⟩⟩ := hostClock_eq_next.1 h
  · exact .inl h
  · obtain ⟨w, hw, h, -⟩ := takeInterrupt_eq_next.1 h
    rw [latchCycle_slot] at hw
    refine .inr ?_
    cases hsl : s.slot with
    | none =>
      rw [hsl] at hw
      injection hw
    | terminal p =>
      rw [hsl] at hw
      obtain rfl := Option.some.inj hw
      exact .inl ⟨hen, ⟨p, .inl rfl⟩, cycleTerminal_effect h⟩
    | composite p =>
      rw [hsl] at hw
      obtain rfl := Option.some.inj hw
      exact .inl ⟨hen, ⟨p, .inr rfl⟩, cycleComposite_effect h⟩
    | dma code =>
      rw [hsl] at hw
      obtain rfl := Option.some.inj hw
      obtain ⟨stores, eff, hst⟩ := dmaState_effect h
      exact .inr ⟨hen, code, stores, rfl, eff, hst⟩

/-- Contention stops the machine whatever the next event is (40_bus_primitives.md R115). -/
theorem step_contended {s : State} {b : BusName} (h : contended s = some b) :
    step s = .fault (.contention b (currentWord s) s) := by
  unfold step runNext contention
  rw [h]
  rfl

/-- Without contention a step runs the next event. -/
theorem step_eq {s : State} (h : contended s = none) : step s = runEvent (nextEvent s).1 (nextEvent s).2 := by
  unfold step runNext contention
  rw [h]
  rfl

/-- A step answers where no bus is driven from both sides and the next event answers. -/
theorem step_eq_next {s t : State} :
    step s = .next t ↔ contended s = none ∧ runEvent (nextEvent s).1 (nextEvent s).2 = .next t := by
  unfold step runNext contention
  rw [unlessFault_eq_next, Option.map_eq_none_iff]

/-- A listed event runs on the state without it. -/
theorem step_cons {s : State} {e : Event} {rest : List Event} (hc : contended s = none) (h : s.env = e :: rest) :
    step s = runEvent e { s with env := rest } := by
  rw [step_eq hc]
  unfold nextEvent
  rw [h]

/-- Contention is some bus driven against the host in the current cycle (40_bus_primitives.md R115). -/
theorem contended_drivenAgainst {s : State} {b : BusName} (h : contended s = some b) :
    DrivenAgainst s s.inp.ctrl.rw b := by
  unfold contended at h
  cases hb : s.busReq
  · simp only [hb, Bool.false_eq_true, if_false] at h
    split at h
    · cases h
      exact ⟨hb, by assumption⟩
    · split at h
      · cases h
        exact ⟨hb, by assumption⟩
      · split at h
        · cases h
          exact ⟨hb, by assumption⟩
        · cases h
  · simp [hb] at h

/-- A bus driven against the host is contention, of that bus or of one named before it. -/
theorem drivenAgainst_contended {s : State} {b : BusName} (h : DrivenAgainst s s.inp.ctrl.rw b) :
    ∃ b', contended s = some b' := by
  unfold contended
  cases b <;> obtain ⟨hb, h⟩ := h <;> simp only [hb, Bool.false_eq_true, if_false] <;> split <;>
    first | exact ⟨_, rfl⟩ | (split <;> first | exact ⟨_, rfl⟩ | contradiction)

/-- The bus discipline leaves no bus driven from both sides (60_exceptions.md R223). -/
theorem contended_of_busInvariant {s : State} (h : BusInvariant s) : contended s = none := by
  unfold BusInvariant at h
  split at h
  · exact contended_released h.2.1 h.2.2.2.1 h.2.2.1
  · obtain ⟨-, -, -, -, hd, hb, -, hr⟩ := h
    cases hs : slotIsDma s.slot
    · obtain ⟨-, ha, hw⟩ := hr hs
      exact contended_released ha hw hd
    · exact contended_owned (hb.trans hs)

/-- The next event's state differs in the environment only. -/
theorem nextEvent_eq (s : State) : ∃ env i, (nextEvent s).2 = { s with env := env, freeIdx := i } := by
  unfold nextEvent
  split <;> exact ⟨_, _, rfl⟩

end Sys2Proof.Machine
end

