-- ==== Sys2Proof/Tests/Slice0.lean ====
section
/-! SUPPORT. Tests of one step each, with results from 95_test_vectors.md and the examples of the rules; the operand
checks with ill-formed terms; the decoding of every constructor; witnesses that meet the hypotheses of the statements. -/

namespace Sys2Proof.Tests

open Sys2Proof Sys2Proof.Machine

/-! ### Helpers -/

/-- What an outcome's next state answers, if it has one. -/
def onNext {α : Type} (f : State → α) (o : Out) : Option α :=
  match o with
  | .next s => some (f s)
  | .fault _ => none
  | .refused _ => none

/-- What an outcome's fault answers, if it is one. -/
def onFault {α : Type} (f : Fault → α) (o : Out) : Option α :=
  match o with
  | .next _ => none
  | .fault r => some (f r)
  | .refused _ => none

/-- The fault of an outcome, with the state it left. -/
def faultOf (o : Out) : Option Fault := onFault id o

/-- The refusal of an outcome. -/
def refusalOf (o : Out) : Option Refusal :=
  match o with
  | .next _ => none
  | .fault _ => none
  | .refused r => some r

/-- What a word decodes to. -/
def decoded (w : OpWord) : Option Instr := (decode w).toOption

/-- The state S0 of 95_test_vectors.md, in the fields the tests need. -/
def s0 : State :=
  { State.reset with
    profile := .a, ref := ⟨40, 90, 130, 0, true⟩, ifState := .active, cycIrqEnable := true, slot := .terminal .reu }

/-- The bus of a host read or write. -/
def bus (rw io2 : Bool) (a : Addr) (v : Byte) : BusIn :=
  ⟨a, { Ctrl.idle with rw := rw, io2 := io2 }, v, 5, none⟩

/-- A host cycle with this bus, untimed. -/
def hostCyc (b : BusIn) : HostCycle := ⟨b.addr, b.ctrl, b.data, 100, 5, none⟩

/-- `R a` with `io2` asserted. -/
def readReg (a : Addr) : HostCycle := hostCyc (bus true true a 0xEE)

/-- `W a, #v` with `io2` asserted. -/
def writeReg (a : Addr) (v : Byte) : HostCycle := hostCyc (bus false true a v)

/-- A host read that selects nothing. -/
def quiet : HostCycle := hostCyc (bus true false 0xC000 0xEE)

/-- A DMA cycle in which the host side puts `v` on the data bus. -/
def dmaData (v : Byte) : HostCycle := hostCyc (bus true false 0 v)

/-- One step on a host cycle. -/
def onCycle (c : HostCycle) (s : State) : Out := step { s with env := [.cycle c] }

/-- A transfer in the sequencer state `code`, with the register file `f`. -/
def inDma (code : BitVec 3) (f : RegFile) : State :=
  { s0 with slot := .dma code, savedSlot := .terminal .reu, busReq := true, reg := f }

/-- A register file in a transfer: COMMAND, host address, peripheral address, length, IMR, ACR. -/
def regs (command : Byte) (h : Addr) (p : PerAddr) (l : BitVec 16) (imr acr : Byte) : RegFile :=
  { (RegFile.entry.putHostAddr h).putPerAddr p with
    command := command, lenLo := l.extractLsb' 0 8, lenHi := l.extractLsb' 8 8, imr := imr, acr := acr }

/-! ### WellFormed: an ill-formed term for each check -/

theorem test_wf_arm_profile : (Instr.armRefs .unclassified 0).wellFormed = false := by decide

theorem test_wf_arm_offset :
    (Instr.armRefs .a 31).wellFormed = false ∧ (Instr.armRefs .b (-31)).wellFormed = false ∧
      (Instr.armRefs .a 30).wellFormed = true ∧ (Instr.armRefs .b (-30)).wellFormed = true := by decide

theorem test_wf_install_reserved :
    (Instr.installHandler (.dma 4)).wellFormed = false ∧ (Instr.installHandler (.dma 5)).wellFormed = false ∧
      (Instr.installHandler (.dma 6)).wellFormed = true := by decide

theorem test_wf_enable_mode :
    (Instr.enableInterface .none 0).wellFormed = false ∧ (Instr.enableInterface (.dma 0) 0).wellFormed = false ∧
      (Instr.enableInterface (.composite .reu) 45).wellFormed = true := by decide

/-! ### Decoding: a word of every constructor, from the tables of 30_encoding.md -/

/-- R85, reads: `1 1 11011111000 iiiii` is $DFxx. -/
theorem test_decode_reads :
    decoded (.hostCyc 0b111101111100000000) = some (.rdStatus 0b11011111000) ∧
    decoded (.hostCyc 0b111101111100000001) = some (.rdCommand 0b11011111000) ∧
    decoded (.hostCyc 0b111101111100000010) = some (.rdHostLo 0b11011111000) ∧
    decoded (.hostCyc 0b111101111100000011) = some (.rdHostHi 0b11011111000) ∧
    decoded (.hostCyc 0b111101111100000100) = some (.rdPerLo 0b11011111000) ∧
    decoded (.hostCyc 0b111101111100000101) = some (.rdPerHi 0b11011111000) ∧
    decoded (.hostCyc 0b111101111100000110) = some (.rdBank 0b11011111000) ∧
    decoded (.hostCyc 0b111101111100000111) = some (.rdLenLo 0b11011111000) ∧
    decoded (.hostCyc 0b111101111100001000) = some (.rdLenHi 0b11011111000) ∧
    decoded (.hostCyc 0b111101111100001001) = some (.rdImr 0b11011111000) ∧
    decoded (.hostCyc 0b111101111100001010) = some (.rdAcr 0b11011111000) ∧
    decoded (.hostCyc 0b111101111100001011) = some (.rdUnused0B 0b11011111000) ∧
    decoded (.hostCyc 0b111101111100001110) = some (.rdUnused0C0F 0b11011111000 0b10) ∧
    decoded (.hostCyc 0b111101111100011010) = some (.rdUnused101F 0b11011111000 0b1010) := by decide

/-- R85, writes: `1 0 11011111000 iiiii` is $DFxx; R87, the trigger address. -/
theorem test_decode_writes :
    decoded (.hostCyc 0b101101111100000000) = some (.wrStatus 0b11011111000) ∧
    decoded (.hostCyc 0b101101111100000001) = some (.wrCommand 0b11011111000) ∧
    decoded (.hostCyc 0b101101111100000010) = some (.wrHostLo 0b11011111000) ∧
    decoded (.hostCyc 0b101101111100000011) = some (.wrHostHi 0b11011111000) ∧
    decoded (.hostCyc 0b101101111100000100) = some (.wrPerLo 0b11011111000) ∧
    decoded (.hostCyc 0b101101111100000101) = some (.wrPerHi 0b11011111000) ∧
    decoded (.hostCyc 0b101101111100000110) = some (.wrBank 0b11011111000) ∧
    decoded (.hostCyc 0b101101111100000111) = some (.wrLenLo 0b11011111000) ∧
    decoded (.hostCyc 0b101101111100001000) = some (.wrLenHi 0b11011111000) ∧
    decoded (.hostCyc 0b101101111100001001) = some (.wrImr 0b11011111000) ∧
    decoded (.hostCyc 0b101101111100001010) = some (.wrAcr 0b11011111000) ∧
    decoded (.hostCyc 0b101101111100001011) = some (.wrUnused0B 0b11011111000) ∧
    decoded (.hostCyc 0b101101111100001101) = some (.wrUnused0C0F 0b11011111000 0b01) ∧
    decoded (.hostCyc 0b101101111100010000) = some (.wrUnused101F 0b11011111000 0b0000) ∧
    decoded (.hostCyc 0b001111111100000000) = some .wrFf00 := by decide

/-- R89, COMMAND bytes: EXEC, bit 6, AUTOLOAD, FF00, bits 3:2, TYPE; R90, sequencer codes. -/
theorem test_decode_transfers :
    decoded (.cmdType 0b10010000) = some (.cmdStash false false true 0b00) ∧
    decoded (.cmdType 0b10100001) = some (.cmdFetch false true false 0b00) ∧
    decoded (.cmdType 0b11001110) = some (.cmdSwap true false false 0b11) ∧
    decoded (.cmdType 0b10000111) = some (.cmdVerify false false false 0b01) ∧
    decoded (.dmaState 0b000) = some .dmaStash ∧ decoded (.dmaState 0b001) = some .dmaFetch ∧
    decoded (.dmaState 0b010) = some .dmaSwap1 ∧ decoded (.dmaState 0b110) = some .dmaSwap2 ∧
    decoded (.dmaState 0b011) = some .dmaVerify ∧ decoded (.dmaState 0b111) = some .dmaVerifyErr := by decide

/-- R91, the bus primitives. -/
theorem test_decode_primitives :
    decoded (.op8 0x01 .none) = some .addrRead ∧ decoded (.op8 0x02 (.addr 0x2000)) = some (.addrDrive 0x2000) ∧
    decoded (.op8 0x03 .none) = some .addrDirIn ∧ decoded (.op8 0x04 .none) = some .addrDirOut ∧
    decoded (.op8 0x05 .none) = some .dataRead ∧ decoded (.op8 0x06 (.byte 0x50)) = some (.dataDrive 0x50) ∧
    decoded (.op8 0x07 .none) = some .dataDirIn ∧ decoded (.op8 0x08 .none) = some .dataDirOut ∧
    decoded (.op8 0x09 .none) = some .ctrlRead ∧ decoded (.op8 0x0A .none) = some .busSample ∧
    decoded (.op8 0x0B (.flag true)) = some (.rwDrive true) ∧ decoded (.op8 0x0C .none) = some .rwRelease ∧
    decoded (.op8 0x0D (.flag true)) = some (.busreqSet true) ∧ decoded (.op8 0x0E (.flag false)) = some (.irqSet false) ∧
    decoded (.op8 0x0F (.lines (.driven 3))) = some (.cartLinesSet (.driven 3)) ∧
    decoded (.op8 0x10 .none) = some .busSafeIdle := by decide

/-- R91, tracker, dispatch and sequencer operations. -/
theorem test_decode_operations :
    decoded (.op8 0x20 .none) = some .measureInterval ∧
    decoded (.op8 0x21 (.interval (some 171))) = some (.classifySample (some 171)) ∧
    decoded (.op8 0x22 .none) = some .classifyClock ∧ decoded (.op8 0x23 .none) = some .waitValidClock ∧
    decoded (.op8 0x24 (.arm .b (-5))) = some (.armRefs .b (-5)) ∧ decoded (.op8 0x25 .none) = some .now ∧
    decoded (.op8 0x26 .none) = some .resync ∧ decoded (.op8 0x27 (.time 110)) = some (.waitUntil 110) ∧
    decoded (.op8 0x40 (.handler (.dma 2))) = some (.installHandler (.dma 2)) ∧
    decoded (.op8 0x41 (.mode (.terminal .reu) 0)) = some (.enableInterface (.terminal .reu) 0) ∧
    decoded (.op8 0x42 .none) = some .disableInterface ∧
    decoded (.op8 0x43 (.pair .reu)) = some (.cycleTerminal .reu) ∧
    decoded (.op8 0x44 (.pair (.cart 7))) = some (.cycleComposite (.cart 7)) ∧
    decoded (.op8 0x60 .none) = some .trigger ∧
    decoded (.op8 0x61 (.status false true)) = some (.finalize false true) := by decide

/-- R88, R89, R94, R91: what is declined or rejected, and register decode first at $FF00 (V-R29). -/
theorem test_decode_rejects :
    decoded (.hostCyc 0x1FF00) = none ∧ decoded (.hostCyc 0x0FF01) = none ∧ decoded (.hostCyc 0x1C000) = none ∧
    decoded (.hostCyc 0x2FF00) = some (.wrStatus 0x7F8) ∧ decoded (.cmdType 0x7F) = none ∧
    decoded (.dmaState 0b100) = none ∧ decoded (.dmaState 0b101) = none ∧ decoded (.op8 0x11 .none) = none ∧
    decoded (.op8 0x62 .none) = none ∧ decoded (.op8 0x02 .none) = none := by decide

/-- The host's numbering: a row's word is one number, 18 bits for a cycle word. -/
theorem test_table_words :
    decodeTableWord 24 0x2DF01 = some (.wrCommand 0x6F8) ∧ decodeTableWord 24 0x0FF00 = some .wrFf00 ∧
    decodeTableWord 8 0x82 = some (.cmdSwap false false false 0) ∧ decodeTableWord 8 0x42 = some .disableInterface ∧
    decodeTableWord 3 0b110 = some .dmaSwap2 := by decide

/-! ### Register operations: the vectors V-S1, V-P1 and V-R -/

/-- V-P1: STATUS 0x40 is read as 0x50 and cleared. -/
theorem test_read_status :
    onNext (fun t => (t.obs.driven, t.reg.status, t.irqOut, t.dataDir))
      (onCycle (readReg 0xDF00) { s0 with reg := { s0.reg with status := 0x40 }, irqOut := true }) =
    some (some 0x50, 0x00, false, .input) := by decide

/-- V-R11: the same through a mirror. -/
theorem test_read_status_mirror :
    onNext (fun t => (t.obs.driven, t.reg.status, t.irqOut))
      (onCycle (readReg 0xDF20) { s0 with reg := { s0.reg with status := 0xC0 }, irqOut := true }) =
    some (some 0xD0, 0x00, false) := by decide

/-- V-R2 to V-R5: the views at mode entry. -/
theorem test_read_views_low :
    onNext (·.obs.driven) (onCycle (readReg 0xDF01) s0) = some (some 0x10) ∧
    onNext (·.obs.driven) (onCycle (readReg 0xDF02) s0) = some (some 0x00) ∧
    onNext (·.obs.driven) (onCycle (readReg 0xDF03) s0) = some (some 0x00) ∧
    onNext (·.obs.driven) (onCycle (readReg 0xDF04) s0) = some (some 0x00) ∧
    onNext (·.obs.driven) (onCycle (readReg 0xDF05) s0) = some (some 0x00) ∧
    onNext (·.obs.driven) (onCycle (readReg 0xDF06) s0) = some (some 0xF8) := by decide

/-- V-R6 to V-R9. -/
theorem test_read_views_high :
    onNext (·.obs.driven) (onCycle (readReg 0xDF07) s0) = some (some 0xFF) ∧
    onNext (·.obs.driven) (onCycle (readReg 0xDF08) s0) = some (some 0xFF) ∧
    onNext (·.obs.driven) (onCycle (readReg 0xDF09) s0) = some (some 0x1F) ∧
    onNext (·.obs.driven) (onCycle (readReg 0xDF0A) s0) = some (some 0x3F) ∧
    onNext (·.obs.driven) (onCycle (readReg 0xDF0B) s0) = some (some 0xFF) ∧
    onNext (·.obs.driven) (onCycle (readReg 0xDF0F) s0) = some (some 0xFF) ∧
    onNext (·.obs.driven) (onCycle (readReg 0xDF1F) s0) = some (some 0xFF) := by decide

/-- V-P2, V-S6: a declined read drives nothing, and the pending flag is cleared. -/
theorem test_declined_read :
    onNext (fun t => (t.obs.driven, t.dataDir, t.cycIrqPending)) (onCycle quiet s0) =
    some (none, .input, false) := by decide

/-- V-R12, V-R24: writes that are ignored. -/
theorem test_ignored_writes :
    onNext (fun t => (t.reg, t.shadow))
      (onCycle (writeReg 0xDF00 0x00) { s0 with reg := { s0.reg with status := 0xC0 } }) =
      some ({ s0.reg with status := 0xC0 }, s0.shadow) ∧
    onNext (fun t => (t.reg, t.shadow)) (onCycle (writeReg 0xDF1F 0x55) s0) = some (s0.reg, s0.shadow) := by decide

/-- V-S7, host pair after P5: the partner is reloaded from its shadow. -/
theorem test_half_autoload_low :
    onNext (fun t => (t.reg.hostLo, t.reg.hostHi, t.shadow.hostLo))
      (onCycle (writeReg 0xDF02 0x00) { s0 with
        reg := { s0.reg with hostLo := 0x02, hostHi := 0x11 }
        shadow := { s0.shadow with hostLo := 0xFE, hostHi := 0x10 } }) = some (0x00, 0x10, 0x00) := by decide

/-- V-R28: the high byte of the peripheral pair; BANK unchanged. -/
theorem test_half_autoload_high :
    onNext (fun t => (t.reg.perHi, t.reg.perLo, t.reg.bank))
      (onCycle (writeReg 0xDF05 0x00) { s0 with
        reg := { s0.reg with perLo := 0x02, bank := 0x03 }, shadow := { s0.shadow with perLo := 0xFE } }) =
    some (0x00, 0xFE, 0x03) := by decide

/-- V-S7: the length pair, R172's example. -/
theorem test_half_autoload_length :
    onNext (fun t => (t.reg.lenHi, t.reg.lenLo))
      (onCycle (writeReg 0xDF08 0x00) { s0 with
        reg := { s0.reg with lenLo := 0x01 }, shadow := { s0.shadow with lenLo := 0x04 } }) = some (0x00, 0x04) := by
  decide

/-- V-R15: an IMR write does not evaluate the interrupt condition. -/
theorem test_write_imr :
    onNext (fun t => (t.reg.imr, t.reg.status, t.irqOut))
      (onCycle (writeReg 0xDF09 0xC0) { s0 with reg := { s0.reg with status := 0x40 } }) =
    some (0xC0, 0x40, false) := by decide

/-- V-R17: COMMAND 0x90 starts a STASH in this cycle. -/
theorem test_command_immediate :
    onNext (fun t => (t.slot, t.savedSlot, t.busReq, t.reg.command)) (onCycle (writeReg 0xDF01 0x90) s0) =
    some (.dma 0b000, .terminal .reu, true, 0x90) := by decide

/-- V-R23: COMMAND 0xCC only arms. -/
theorem test_command_armed :
    onNext (fun t => (t.slot, t.busReq, t.reg.command, t.shadow.command)) (onCycle (writeReg 0xDF01 0xCC) s0) =
    some (.terminal .reu, false, 0xCC, 0xCC) := by decide

/-- V-R20: the $FF00 write starts the armed VERIFY. -/
theorem test_ff00_armed :
    onNext (fun t => (t.slot, t.busReq))
      (onCycle (hostCyc (bus false false 0xFF00 0x55)) { s0 with reg := { s0.reg with command := 0x83 } }) =
    some (.dma 0b011, true) := by decide

/-- V-R22: not armed, the $FF00 write does nothing. -/
theorem test_ff00_unarmed :
    onNext (fun t => (t.slot, t.busReq))
      (onCycle (hostCyc (bus false false 0xFF00 0x00)) s0) = some (.terminal .reu, false) := by decide

/-- V-P5: a composite cycle whose primary declines is answered by the REU pair, here with REU itself as primary. -/
theorem test_composite_read :
    onNext (·.obs.driven) (onCycle (readReg 0xDF06) { s0 with slot := .composite .reu }) = some (some 0xF8) := by decide

/-! ### Bus primitives: the vectors V-B -/

/-- V-B1, V-B2. -/
theorem test_addr_read :
    onNext (·.ret) (exec .addrRead { s0 with inp := bus true true 0xDF01 0 }) = some (.addr 0xDF01) ∧
    onNext (·.ret) (exec .addrRead { s0 with addrDir := .output, addrLatch := 0x1000 }) = some (.addr 0x1000) := by
  decide

/-- V-B4, V-B5. -/
theorem test_addr_dir_out :
    let s : State := { s0 with inp := bus true true 0xDF00 0 }
    faultOf (exec .addrDirOut s) = some (.contention .address 0x3DF00 s) ∧
    onNext (·.addrDir) (exec .addrDirOut { s0 with busReq := true }) = some .output := by decide

/-- V-B6, V-B7. -/
theorem test_data_dir_out :
    let s : State := { s0 with inp := bus false true 0xDF01 0 }
    faultOf (exec .dataDirOut s) = some (.contention .data 0x2DF01 s) ∧
    onNext (·.dataDir) (exec .dataDirOut { s0 with inp := bus true true 0xDF00 0 }) = some .output := by decide

/-- V-B8, V-B9. -/
theorem test_reads_while_driving :
    onNext (·.ret) (exec .dataRead { s0 with dataDir := .output, dataLatch := 0x50 }) = some (.byte 0x50) ∧
    onNext (·.ret) (exec .ctrlRead { s0 with rwDir := .output, rwLatch := false }) =
      some (.ctrl { Ctrl.idle with rw := false }) := by decide

/-- V-B10. -/
theorem test_bus_sample :
    onNext (·.ret) (exec .busSample { s0 with inp := bus false true 0xDF01 0x90 }) =
      some (.sample 0xDF01 { Ctrl.idle with rw := false, io2 := true }) := by decide

/-- V-B11. -/
theorem test_rw_drive :
    let s : State := { s0 with inp := bus true false 0xC000 0 }
    faultOf (exec (.rwDrive true) s) = some (.contention .rw 0x1C000 s) := by decide

/-- R115: a driven address bus or R/W without the bus request, and the data bus driven in the write cycle that comes. -/
theorem test_contended_cycle :
    onFault Fault.codes (onCycle quiet { s0 with addrDir := .output }) = some [2] ∧
    onFault Fault.codes (onCycle quiet { s0 with rwDir := .output, cycIrqEnable := false }) = some [2] ∧
    onFault (fun f => (f.codes, f.left.dataDir)) (onCycle (writeReg 0xDF06 1) { s0 with dataDir := .output }) =
      some ([2], .output) ∧
    onNext (·.reg.bank) (onCycle (writeReg 0xDF06 1) s0) = some 1 := by decide

/-- R115: BUSREQ_SET(false) completes (R111) and leaves contention, from which nothing runs on: not the release of the bus,
not a wait, not an untimed read cycle, and not one after a write cycle in which the data bus is driven. -/
theorem test_contention_left :
    let s := inDma 1 (regs 0x90 0x1000 0x100 3 0 0)
    let out : State := { s with addrDir := .output, env := [.op (.op8 0x0D (.flag false))] }
    onNext contended (step out) = some (some .address) ∧
    (∀ e ∈ [Event.op (.op8 0x10 .none), .op (.op8 0x27 (.time 9)), .op (.op8 0x0D (.flag true)), .cycle quiet],
      onFault Fault.codes (step { s with addrDir := .output, busReq := false, env := [e] }) = some [2]) ∧
    onFault Fault.contentionInfo (onCycle quiet { s with
      dataDir := .output, busReq := false, inp := bus false false 0xC000 1 }) = some (some (.data, 0x0C000)) := by decide

/-- V-B16. -/
theorem test_bus_safe_idle :
    onNext (fun t => (t.dataDir, t.addrDir, t.rwDir, t.busReq, t.irqOut, t.cartLines))
      (exec .busSafeIdle { s0 with
        dataDir := .output, addrDir := .output, rwDir := .output, busReq := true, irqOut := true
        cartLines := .driven 5 }) = some (.input, .input, .input, false, false, .deasserted) := by decide

/-! ### Phase tracker: the vectors V-S4, V-S5 and V-T -/

/-- V-S4, TOL 50: 171, 168 to A; 167, 164 to B; 178 to A; 180 and 155 rejected. -/
theorem test_classify_sample :
    [171, 168, 167, 164, 178, 180, 157, 155].map (fun c => classifySample Params.example (some c)) =
      [.a, .a, .b, .b, .a, .unclassified, .b, .unclassified] := by decide

/-- V-S4: 178 depends on TOL, 177 must classify, 181 must be rejected. -/
theorem test_classify_tolerance :
    [177, 178, 181].map (fun c => classifySample { Params.example with tol := 40 } (some c)) =
      [.a, .unclassified, .unclassified] ∧
    [177, 180, 181].map (fun c => classifySample { Params.example with tol := 59 } (some c)) =
      [.a, .a, .unclassified] := by decide

/-- V-T1. -/
theorem test_classify_clock :
    onNext (fun t => (t.profile, t.ret, t.intervals))
      (exec .classifyClock { s0 with intervals := [some 171, some 170, some 171, none] }) =
    some (.a, .classified (some .a), [none]) := by decide

/-- V-T2: the run never reaches 2. -/
theorem test_classify_clock_fails :
    onNext (fun t => (t.profile, t.ret))
      (exec .classifyClock { s0 with
        cfg := { Params.example with classifyRun := 2 }
        intervals := [some 171, some 164, some 171, some 164, some 171, some 164, some 171, some 164] }) =
    some (.unclassified, .classified none) := by decide

/-- V-T5, the last failed attempt: the led is toggled and the operation runs again. -/
theorem test_wait_valid_clock :
    onNext (fun t => (t.led, t.env))
      (exec .waitValidClock { s0 with intervals := List.replicate 8 none }) =
    some (true, [.op (.op8 0x23 .none)]) := by decide

/-- The machine after power-on, with the host clock classified. -/
def classified (p : Profile) : State := { State.reset with profile := p }

/-- V-S5, offset -5; R224's bound. -/
theorem test_arm_refs :
    onNext (·.ref) (exec (.armRefs .a (-5)) (classified .a)) = some ⟨35, 85, 125, -5, true⟩ ∧
    faultOf (exec (.armRefs .a 31) (classified .a)) = some (.badOffset 31 (classified .a)) := by decide

/-- V-T7; R225: an Unclassified operand, and an Unclassified state. -/
theorem test_arm_refs_unclassified :
    faultOf (exec (.armRefs .unclassified 99) (classified .a)) = some (.unarmed .armRefs (classified .a)) ∧
    faultOf (exec (.armRefs .a 0) State.reset) = some (.unarmed .armRefs State.reset) := by decide

/-- V-T8, V-T12. -/
theorem test_counter :
    onNext (·.cnt) (exec .resync { s0 with timer := 0x42, cnt := 7 }) = some 0x42 ∧
    onNext (·.ret) (exec .now { s0 with cnt := 0xFFFFFFF0 }) = some (.time 0xFFFFFFF0) := by decide

/-- V-T9 to V-T11. -/
theorem test_wait_until :
    onNext (·.ret) (exec (.waitUntil 110) { s0 with cnt := 100 }) = some (.time 10) ∧
    onNext (·.ret) (exec (.waitUntil 110) { s0 with cnt := 120 }) = some (.time 0) ∧
    onNext (fun t => (t.ret, t.cnt)) (exec (.waitUntil 0x10) { s0 with cnt := 0xFFFFFFF0 }) =
      some (.time 0x20, 0x10) := by decide

/-- R117: a draw above the time-out is none. -/
theorem test_measure_interval :
    onNext (·.ret) (exec .measureInterval { s0 with intervals := [some 170] }) = some (.interval (some 170)) ∧
    onNext (·.ret) (exec .measureInterval { s0 with intervals := [some 1001] }) = some (.interval none) := by decide

/-- V-T13, V-T14: a second match in a timed run; a masked match. -/
theorem test_compare_match :
    onFault (fun f => (f.codes, f.left.cycIrqPending))
      (onCycle { quiet with timing := some ⟨171, 131, 150, 140⟩ } { s0 with cycIrqPending := true }) = some ([1], true) ∧
    onNext (fun t => (t.cycIrqPending, t.reg, t.obs.word))
      (onCycle (writeReg 0xDF06 0x0D) { s0 with cycIrqEnable := false }) = some (true, s0.reg, none) := by decide

/-! ### Dispatch: the vectors V-P9 to V-P14 and V-I -/

/-- V-P10: from power-on to S0. -/
theorem test_enable :
    onNext (fun t => ((t.ifState, t.slot, t.profile, t.ref), t.cycIrqEnable, t.reg, t.shadow))
      (step { State.reset with
        intervals := [some 171, some 170, some 171], env := [.op (.op8 0x41 (.mode (.terminal .reu) 0))] }) =
    some ((.active, .terminal .reu, .a, ⟨40, 90, 130, 0, true⟩), true,
      ⟨0x00, 0x10, 0x00, 0x00, 0x00, 0x00, 0x00, 0xFF, 0xFF, 0x00, 0x00⟩,
      ⟨0x10, 0x00, 0x00, 0x00, 0x00, 0x00, 0xFF, 0xFF, 0x00, 0x00⟩) := by decide

/-- V-P11, V-P12. -/
theorem test_enable_stops :
    onFault (fun f => (f.codes, f.left.profile, f.left.ref.armed)) (exec (.enableInterface (.terminal .reu) 45)
      { State.reset with intervals := [some 171, some 170, some 171] }) = some ([3], .a, false) ∧
    refusalOf (exec (.enableInterface (.dma 0) 0) State.reset) = some (.badMode (.dma 0)) := by decide

/-- V-P13: a transfer is abandoned; COMMAND keeps EXEC. -/
theorem test_disable :
    onNext (fun t => ((t.slot, t.busReq, t.addrDir, t.irqOut), t.reg.command, t.reg.status, t.ifState))
      (exec .disableInterface { inDma 0 (regs 0x90 0x1000 0x100 3 0 0) with addrDir := .output }) =
    some ((.none, false, .input, false), 0x90, 0x00, .idle) := by decide

/-- V-P9, V-P14, V-D25. -/
theorem test_stops :
    onFault Fault.codes (onCycle quiet { s0 with slot := .none }) = some [6] ∧
    faultOf (step { s0 with env := [.extWrite (.reg .hostLo 1)] }) = some (.unmaskedMutation .reg s0) ∧
    refusalOf (onCycle quiet { s0 with slot := .dma 0b100 }) = some (.reservedState 0b100) ∧
    onFault Fault.codes (onCycle quiet { s0 with slot := .dma 0b101, ref := State.reset.ref }) = some [4] := by decide

/-- R133, R226: INSTALL_HANDLER by external code. -/
theorem test_install_handler :
    onNext (·.slot) (exec (.installHandler (.dma 1)) { s0 with cycIrqEnable := false }) = some (.dma 1) ∧
    faultOf (exec (.installHandler .none) s0) = some (.unmaskedMutation .slot s0) := by decide

/-! ### DMA sequencer: the vectors V-D and the programs -/

/-- V-D24: DMA_RETRIGGER carries the COMMAND byte. -/
theorem test_retrigger :
    onFault Fault.codes (exec .trigger (inDma 0 (regs 0x90 0x1000 0x100 3 0 0))) = some [8] ∧
    faultOf (exec .trigger (inDma 0 (regs 0x90 0 0 3 0 0))) = some (.dmaRetrigger 0x90 (inDma 0 (regs 0x90 0 0 3 0 0))) ∧
    onNext (·.slot) (exec (.cmdSwap true false false 3) s0) = some (.dma 0b010) := by decide

/-- V-D1, first cycle: the host address wraps. -/
theorem test_stash_wraps :
    onNext (fun t => (t.mem, t.reg.hostAddr, t.reg.length, t.slot, t.obs.dmaAddr))
      (onCycle (dmaData 0x01) (inDma 0b000 (regs 0x90 0xFFFF 0 2 0 0))) =
    some ([(0, 0x01)], 0x0000, 1, .dma 0b000, some 0xFFFF) := by decide

/-- V-D3: the carry into BANK, on the last cycle. -/
theorem test_stash_bank_carry :
    onNext (fun t => ((t.mem, t.reg.perAddr .kb512, t.reg.bank, t.reg.length), t.reg.status, t.slot, t.busReq))
      (onCycle (dmaData 0x77) (inDma 0b000 (regs 0x90 0x1000 0x0FFFF 1 0 0))) =
    some (([(0xFFFF, 0x77)], 0x10000, 0x01, 1), 0x40, .terminal .reu, false) := by decide

/-- V-D2: the peripheral address wraps at REU_SIZE. -/
theorem test_stash_wraps_memory :
    onNext (fun t => (t.mem, t.reg.perLo, t.reg.perHi, t.reg.bank))
      (onCycle (dmaData 0x09) (inDma 0b000 (regs 0x90 0x1000 0x7FFFF 2 0 0))) =
    some ([(0x7FFFF, 0x09)], 0x00, 0x00, 0x00) := by decide

/-- V-D6, V-S3. -/
theorem test_fetch :
    onNext (fun t => ((t.obs.dmaAddr, t.obs.driven, t.reg.length, t.reg.status), t.reg.command, t.slot, t.dataDir))
      (onCycle (dmaData 0) { inDma 0b001 (regs 0x91 0x0400 0 1 0 0) with mem := [(0, 0xAA)] }) =
    some ((some 0x0400, some 0xAA, 1, 0x40), 0x11, .terminal .reu, .input) := by decide

/-- V-D7, first cycle. -/
theorem test_swap1 :
    onNext (fun t => (t.swapLatch, t.slot, t.reg.length, t.obs.dmaAddr))
      (onCycle (dmaData 0x5A) { inDma 0b010 (regs 0x92 0x2000 0x10 1 0 0) with mem := [(0x10, 0xA5)] }) =
    some (0x5A, .dma 0b110, 1, some 0x2000) := by decide

/-- V-D7, second cycle. -/
theorem test_swap2 :
    onNext (fun t => (t.obs.driven, t.mem, t.reg.status, t.slot))
      (onCycle (dmaData 0) { inDma 0b110 (regs 0x92 0x2000 0x10 1 0 0) with mem := [(0x10, 0xA5)], swapLatch := 0x5A }) =
    some (some 0xA5, [(0x10, 0x5A)], 0x40, .terminal .reu) := by decide

/-- P3, cycles 12 and 13. -/
theorem test_verify_mismatch :
    onNext (fun t => (t.slot, t.reg.length, t.reg.status))
      (onCycle (dmaData 0x03) { inDma 0b011 (regs 0x93 0x2002 2 2 0xE0 0) with mem := [(2, 0xFF), (3, 0x04)] }) =
    some (.dma 0b111, 1, 0x00) ∧
    onNext (fun t => (t.slot, t.reg.length, t.reg.status, t.irqOut, t.reg.hostAddr))
      (onCycle (dmaData 0x04) { inDma 0b111 (regs 0x93 0x2003 3 1 0xE0 0) with mem := [(2, 0xFF), (3, 0x04)] }) =
    some (.terminal .reu, 1, 0xE0, true, 0x2004) := by decide

/-- V-D16, V-D14's last cycle, P6's cycle 10. -/
theorem test_verify_ends :
    onNext (·.reg.status) (onCycle (dmaData 1) (inDma 0b011 (regs 0x93 0x2000 0 1 0 0))) = some 0x60 ∧
    onNext (·.reg.status) (onCycle (dmaData 1) (inDma 0b111 (regs 0x93 0x2000 0 1 0 0))) = some 0x20 ∧
    onNext (fun t => (t.reg.status, t.reg.length, t.reg.hostAddr))
      (onCycle (dmaData 2) { inDma 0b111 (regs 0x93 0x2001 1 3 0 0) with mem := [(1, 2)] }) =
      some (0x20, 2, 0x2002) := by decide

/-- V-D18 to V-D22: the interrupt condition of FINALIZE(EOB). -/
theorem test_finalize_condition :
    [(0x00, 0x00), (0xC0, 0x00), (0xA0, 0x00), (0x40, 0x00), (0xA0, 0x20)].map (fun x : Byte × Byte =>
      onNext (fun t => (t.reg.status, t.irqOut)) (exec (.finalize true false)
        { inDma 0 (regs 0x90 0 0 1 x.1 0) with reg := { regs 0x90 0 0 1 x.1 0 with status := x.2 } })) =
    [some (0x40, false), some (0xC0, true), some (0x40, false), some (0x40, false), some (0xE0, true)] := by decide

/-- V-D23: autoload. -/
theorem test_finalize_autoload :
    onNext (fun t => (t.reg.hostAddr, t.reg.perAddr .kb512, t.reg.length, t.reg.command))
      (exec (.finalize true false) { inDma 0 (regs 0xB0 0x1004 0x104 1 0 0) with
        shadow := ⟨0xB0, 0x00, 0x10, 0x00, 0x01, 0x00, 0x04, 0x00, 0x00, 0x00⟩ }) =
    some (0x1000, 0x100, 4, 0x30) := by decide

/-- V-I1. -/
theorem test_power_on :
    (State.reset.ifState, State.reset.busReq, State.reset.irqOut, State.reset.profile, State.reset.slot) =
      (.idle, false, false, .unclassified, .none) ∧
    (State.reset.addrDir, State.reset.dataDir, State.reset.rwDir) = (.input, .input, .input) := by decide

/-- The example parameters meet R12's constraints. -/
theorem test_example_admitted : Params.example.admitted = true := by decide

/-- A step on a placed table word runs it, from reset. -/
theorem test_with_fetch_word :
    onNext (·.obs.driven) (step (State.reset.withFetchWord 24 0x30006)) = some (some 0xF8) ∧
    onNext (·.slot) (step (State.reset.withFetchWord 8 0x83)) = some (.dma 0b011) ∧
    onNext (·.slot) (step (State.reset.withFetchWord 3 0b010)) = some (.dma 0b110) ∧
    onNext (·.ref.armed) (step (State.reset.withFetchWord 8 0x24)) = some true ∧
    onNext (·.ifState) (step (State.reset.withFetchWord 8 0x41)) = some .active := by decide

/-- R226, R55: a masked write by external code; R56: the mark operation. -/
theorem test_external_events :
    onNext (·.mem) (step { State.reset with env := [.extWrite (.mem 5 0x77)] }) = some [(5, 0x77)] ∧
    faultOf (step { State.reset with env := [.extWrite (.mem 0x80000 1)] }) = some (.noSuchByte 0x80000 State.reset) ∧
    onNext (·.regionModified) (step { State.reset with regionModified := true, env := [.mark .peripheral] }) =
      some false ∧
    faultOf (step { s0 with env := [.mark .peripheral] }) = some (.unmaskedMutation .regionModified s0) ∧
    onNext (·.cart.modified) (step { State.reset with cart := ⟨7, [true, true]⟩, env := [.mark (.cart 1)] }) =
      some [true, false] := by decide

/-- R56: the modified flags are false at mode entry, peripheral memory's and the variant's. -/
theorem test_mode_entry_flags :
    onNext (fun t => (t.regionModified, t.cart.modified)) (exec (.enableInterface (.terminal .reu) 0)
      { State.reset with
        intervals := [some 171, some 170, some 171], regionModified := true, cart := ⟨7, [true, false]⟩ }) =
    some (false, [false, false]) := by decide

/-! ### Witnesses: a state and operands that meet the hypotheses of each statement, and of each of its clauses -/

/-- `s0` with this bus on it, in the middle of a host cycle. -/
def onBus (rw io2 : Bool) (a : Addr) (v : Byte) : State := { s0 with inp := bus rw io2 a v }

/-- A transfer with the bus owned, the references armed, one host cycle on the bus. -/
def dmaState (l : BitVec 16) (v : Byte) : State :=
  { inDma 0 (regs 0x90 0x1000 0x100 l 0 0) with inp := bus true false 0 v, mem := [(0x100, 0x5A)] }

theorem test_witness_step_runs_issued :
    let s : State := { s0 with env := [.op (.op8 0x25 .none), .mark .peripheral] }
    s.env = .op (.op8 0x25 .none) :: [.mark .peripheral] ∧ decoded (.op8 0x25 .none) = some .now ∧
      { State.reset with env := [.mark .peripheral] }.env = .mark .peripheral :: [] ∧
      { State.reset with env := [.mark (.cart 1)] }.env = .mark (.cart 1) :: [] ∧ State.reset.cycIrqEnable = false ∧
      { s0 with env := [.mark .peripheral] }.env = .mark .peripheral :: [] ∧ s0.cycIrqEnable = true ∧
      contended s = none ∧ contended State.reset = none ∧ contended { s with rwDir := .output } = some .rw := by decide

theorem test_witness_slot_handlers :
    let s : State := { s0 with env := [.cycle quiet] }
    s.env = .cycle quiet :: [] ∧ quiet.timing = none ∧ s.cycIrqEnable = true ∧ s.slot = .terminal .reu ∧
      { s with slot := .composite .reu }.slot = .composite .reu ∧
      { s with slot := .dma 7 }.slot = .dma 7 ∧ decoded (.dmaState 7) = some .dmaVerifyErr ∧
      { s with slot := .none }.slot = .none ∧ contended s = none ∧
      edgeContention (latchCycle quiet { s with env := [] }) = none := by decide

theorem test_witness_masked_cycle :
    let s : State := { State.reset with env := [.cycle quiet] }
    s.env = .cycle quiet :: [] ∧ s.cycIrqEnable = false ∧ contended s = none ∧
      edgeContention (latchCycle quiet { s with env := [] }) = none := by decide

/-- A read at index 0 and a write at index 31 of a ready host cycle. -/
theorem test_witness_register_cycle :
    HostCycleReady (onBus true true 0xDF00 0) ∧ HostCycleReady (onBus false true 0xDFFF 1) ∧
      decoded (.hostCyc (currentWord (onBus true true 0xDF00 0))) = some (.rdStatus 0x6F8) ∧
      decoded (.hostCyc (currentWord (onBus false true 0xDFFF 1))) = some (.wrUnused101F 0x6FF 15) ∧
      (onBus true true 0xDF00 0).inp.ctrl.rw = true ∧ (onBus false true 0xDFFF 1).inp.ctrl.rw = false := by
  unfold HostCycleReady; decide

theorem test_witness_encode_undoes_decode : decoded (.dmaState 6) = some .dmaSwap2 := by decide

theorem test_witness_mirrors :
    (0x3DF06 : CycleWord).getLsbD 17 = true ∧ (0x3DF06 : CycleWord) &&& 0x3001F = 0x3FFE6 &&& 0x3001F ∧
      decoded (.hostCyc 0x3DF06) = some (.rdBank 0x6F8) ∧ decoded (.hostCyc 0x3FFE6) = some (.rdBank 0x7FF) := by
  decide

theorem test_witness_trigger_word :
    (0x0FF00 : CycleWord) &&& 0x3FFFF = 0x0FF00 ∧ (0x2FF00 : CycleWord).getLsbD 17 = true := by decide

/-- The numbers beside each assigned range, and the largest. -/
theorem test_witness_unassigned_numbers :
    ∀ n ∈ [0x00, 0x11, 0x1F, 0x28, 0x3F, 0x45, 0x5F, 0x62, 0xFF], ∀ b : Byte, b = n →
      ¬ (0x01 ≤ b ∧ b ≤ 0x10) ∧ ¬ (0x20 ≤ b ∧ b ≤ 0x27) ∧ ¬ (0x40 ≤ b ∧ b ≤ 0x44) ∧ b ≠ 0x60 ∧ b ≠ 0x61 := by
  intro n hn b hb; subst hb; revert hn; revert b; decide

theorem test_witness_unadmitted_forms :
    let s : State := { s0 with env := [.op (.op8 0x11 .none)] }
    let t : State := { s0 with env := [.cycle quiet], slot := .dma 0b101 }
    s.env = .op (.op8 0x11 .none) :: [] ∧ t.env = .cycle quiet :: [] ∧ quiet.timing = none ∧ t.cycIrqEnable = true ∧
      t.slot = .dma 0b101 ∧ contended s = none ∧ contended t = none ∧ refsReady t = true ∧ refsReady { t with profile := .unclassified } = false ∧ edgeContention (latchCycle quiet { t with env := [] }) = none := by decide

theorem test_witness_handler_window :
    (bus true true 0xDF00 0).ctrl.io2 = true ∧ (bus true true 0xDFFF 0).ctrl.io2 = true ∧
      (bus true false 0xDF00 0).ctrl.io2 = false := by decide

/-- Handled by io2, handled by the trigger, not handled at $FF00 and at its neighbour. -/
theorem test_witness_write_handler :
    let a : State := { s0 with reg := { s0.reg with command := 0x80 } }
    slotIsDma a.slot = false ∧ (bus false true 0xFF00 0).ctrl.io2 = true ∧ (bus false false 0xFF00 0).ctrl.io2 = false ∧
      a.reg.command.getLsbD 7 = true ∧ a.reg.command.getLsbD 4 = false ∧
      ¬ ((0xFF00 : Addr) = 0xFF00 ∧ s0.reg.command.getLsbD 7 = true ∧ s0.reg.command.getLsbD 4 = false) ∧
      ¬ ((0xFF01 : Addr) = 0xFF00 ∧ a.reg.command.getLsbD 7 = true ∧ a.reg.command.getLsbD 4 = false) := by decide

theorem test_witness_command_write :
    dataRead (onBus false true 0xDF01 0x90) = 0x90 ∧ (0x90 : Byte).getLsbD 7 = true ∧ (0x90 : Byte).getLsbD 4 = true ∧
      slotIsDma (onBus false true 0xDF01 0x90).slot = false ∧ slotIsDma (dmaState 2 0x90).slot = true ∧
      dataRead (dmaState 2 0x90) = 0x90 ∧ ¬ ((0x10 : Byte).getLsbD 7 = true ∧ (0x10 : Byte).getLsbD 4 = true) ∧
      ¬ ((0x80 : Byte).getLsbD 7 = true ∧ (0x80 : Byte).getLsbD 4 = true) := by decide

theorem test_witness_trigger : slotIsDma s0.slot = false ∧ slotIsDma (dmaState 1 0).slot = true := by decide

theorem test_witness_command_types :
    (0xFC : Byte) &&& 0x83 = 0x80 ∧ (0x81 : Byte) &&& 0x83 = 0x81 ∧ (0x92 : Byte) &&& 0x83 = 0x82 ∧
      (0xFF : Byte) &&& 0x83 = 0x83 ∧ slotIsDma s0.slot = false ∧
      decoded (.cmdType (dmaState 1 0).reg.command) = some (.cmdStash false false true 0) := by decide

theorem test_witness_ff00 :
    (0x80 : Byte).getLsbD 7 = true ∧ (0x80 : Byte).getLsbD 4 = false ∧
      { s0 with reg := { s0.reg with command := 0x80 } }.reg.command = 0x80 ∧ (0x00 : Byte).getLsbD 7 = false ∧
      (0x90 : Byte).getLsbD 4 = true ∧ (0x1FF00 : CycleWord).getLsbD 17 = false ∧
      (0x1FF00 : CycleWord).getLsbD 16 = true ∧ slotIsDma s0.slot = false := by decide

/-- Both orders of each pair complete. -/
theorem test_witness_pairs :
    s0.dataDir = .input ∧
    ∀ p ∈ [(Instr.wrHostLo 0, Instr.wrHostHi 0), (.wrHostHi 0, .wrHostLo 0), (.wrPerLo 0, .wrPerHi 0),
        (.wrPerHi 0, .wrPerLo 0), (.wrLenLo 0, .wrLenHi 0), (.wrLenHi 0, .wrLenLo 0)],
      ∃ u, exec p.1 { s0 with inp := { s0.inp with data := 0x34 } } = .next u ∧
        ∃ t, exec p.2 { u with inp := { u.inp with data := 0x12 } } = .next t := by
  refine ⟨rfl, fun p hp => ?_⟩
  simp only [List.mem_cons, List.not_mem_nil, or_false] at hp
  rcases hp with rfl | rfl | rfl | rfl | rfl | rfl <;> exact ⟨_, rfl, _, rfl⟩

/-- A ready host cycle: a claimed read, a declined read, a write; one with a bus driven, one without references. -/
theorem test_witness_host_cycles :
    HostCycleReady (onBus true true 0xDF00 0) ∧ HostCycleReady (onBus true false 0xC000 0) ∧
      HostCycleReady (onBus false true 0xDF06 1) ∧
      onNext (·.obs.driven) (exec (.cycleTerminal .reu) (onBus true true 0xDF00 0)) = some (some 0x10) ∧
      onNext (·.obs.driven) (exec (.cycleComposite .reu) (onBus true false 0xC000 0)) = some none ∧
      onNext (·.obs.data) (exec (.cycleTerminal .reu) (onBus false true 0xDF06 1)) = some (some 1) ∧
      contended { s0 with addrDir := .output } = some .address ∧ contended State.reset = none ∧
      State.reset.ref.armed = false ∧ contended { s0 with profile := .unclassified } = none := by
  unfold HostCycleReady; decide

/-- A read that REU claims, one it declines, a write it handles, one it does not. -/
theorem test_witness_pair_answers :
    let rd := onBus true true 0xDF01 0
    let no := onBus true false 0xC000 0
    let wr := onBus false true 0xDF06 1
    let un := onBus false false 0xC000 1
    (pairRead .reu rd.inp.ctrl (addrRead rd) (sampled rd)).1 = some 0x10 ∧
      pairRead .reu no.inp.ctrl (addrRead no) (sampled no) = (none, sampled no) ∧
      onNext (fun _ => true) (andThen (pairWrite .reu wr.inp.ctrl (addrRead wr) (dataRead wr) (sampled wr))
        fun r => if r.1 then .next r.2 else .fault (.noHandler r.2)) = some true ∧
      pairWrite .reu un.inp.ctrl (addrRead un) (dataRead un) (sampled un) = .next (false, sampled un) ∧
      rd.rwDir = .input ∧ rd.inp.ctrl.rw = true ∧ wr.inp.ctrl.rw = false ∧ HostCycleReady no ∧ HostCycleReady un ∧
      reuRead no.inp.ctrl (addrRead no) (sampled no) = (none, sampled no) := by
  unfold HostCycleReady
  refine ⟨by decide, rfl, by decide, rfl, rfl, rfl, rfl, by decide, by decide, rfl⟩

/-- A cartridge primary that declines: the answer is REU's, on the state the primary left. Its handlers are free, so the
premise is met exactly where they decline. -/
theorem test_witness_cartridge_declines :
    let rd := onBus true true 0xDF01 0
    (Config.cartRead 1 rd.cart rd.inp.ctrl (addrRead rd)).data = none →
      HostCycleReady rd ∧ ∃ u, pairRead (.cart 1) rd.inp.ctrl (addrRead rd) (sampled rd) = (none, u) ∧
        reuRead rd.inp.ctrl (addrRead rd) u = (some 0x10, u) := by
  intro rd h
  refine ⟨by unfold HostCycleReady; decide, _, Prod.ext h rfl, ?_⟩
  have e : ∀ u : State, u.reg = s0.reg → reuRead rd.inp.ctrl (addrRead rd) u = (some 0x10, u) := fun u hu => by
    have hi : indexOf (addrRead rd) = 1 := by decide
    unfold reuRead
    rw [hi]
    show (some (u.reg.view .command), u) = _
    rw [hu]
    rfl
  exact e _ rfl

theorem test_witness_install : State.reset.cycIrqEnable = false ∧ s0.cycIrqEnable = true := by decide

/-- Both kinds of mode, both ends of the offset range and the first values beyond, from Idle and from Active. -/
theorem test_witness_enable :
    (Handler.terminal .reu).isMode = true ∧ usesReu (.terminal .reu) = true ∧ (Handler.terminal (.cart 1)).isMode = true ∧
      usesReu (.terminal (.cart 1)) = false ∧ 1 ≤ s0.cfg.classifyRun ∧ s0.cfg.classifyRun ≤ s0.cfg.classifyMax ∧
      [some 171, some 170, some 171].length = s0.cfg.classifyRun ∧
      (∀ c ∈ [some 171, some 170, some 171], sampleClass s0.cfg c = .a) ∧
      (∀ c ∈ [some 164, some 164, some 164], sampleClass s0.cfg c = .b) ∧
      { s0 with intervals := [some 171, some 170, some 171, none] }.intervals =
        [some 171, some 170, some 171] ++ [none] ∧
      (-30 : Int) ≤ -30 ∧ (30 : Int) ≤ 30 ∧ (-31 : Int) < -30 ∧ (30 : Int) < 31 ∧
      s0.ifState = .active ∧ State.reset.ifState = .idle ∧
      (∀ n, Handler.terminal .reu ≠ .terminal (.cart n) ∧ Handler.terminal .reu ≠ .composite (.cart n)) := by
  refine ⟨rfl, rfl, rfl, rfl, by decide, by decide, rfl, by decide, by decide, rfl, by decide, by decide, by decide,
    by decide, rfl, rfl, fun n => ⟨by simp, by simp⟩⟩

theorem test_witness_enable_waits :
    (Handler.composite .reu).isMode = true ∧ (List.replicate 8 (some 181)).length = s0.cfg.classifyMax ∧
      (∀ c ∈ List.replicate 8 (some 181), sampleClass s0.cfg c = .unclassified) ∧
      { s0 with intervals := List.replicate 8 (some 181) ++ [none] }.intervals =
        List.replicate 8 (some 181) ++ [none] := by decide

/-- 171 within 4 %, 181 beyond 6 % of both, 178 and 180 between, on either side of TOL 50. -/
theorem test_witness_bands :
    let dev (c f : Nat) : Nat := ((c * f : Int) - 168000000).natAbs
    0 < Params.example.fMcu ∧ 40 ≤ Params.example.tol ∧ Params.example.tol < 60 ∧
      1000 * dev 171 985248 ≤ 40 * 168000000 ∧ 60 * 168000000 < 1000 * dev 181 985248 ∧
      60 * 168000000 < 1000 * dev 181 1022727 ∧ 40 * 168000000 < 1000 * dev 178 985248 ∧
      40 * 168000000 < 1000 * dev 178 1022727 ∧ 1000 * dev 178 985248 ≤ 50 * 168000000 ∧
      50 * 168000000 < 1000 * dev 180 985248 ∧ 50 * 168000000 < 1000 * dev 180 1022727 := by decide

/-- A first stable run, and samples without one. -/
theorem test_witness_classify_clock :
    let cfg := Params.example
    let xs := List.replicate 8 (some 171)
    1 ≤ cfg.classifyRun ∧ xs.length = cfg.classifyMax ∧ RunAt cfg xs .a 3 ∧ (∀ q j, j < 3 → ¬ RunAt cfg xs q j) ∧
      ∀ p k, ¬ RunAt cfg (List.replicate 8 none) p k := by
  refine ⟨by decide, by decide, ⟨by decide, by decide, by decide, fun j _ hj => ?_⟩, fun q j hj h => ?_,
    fun p k ⟨hp, hk, hn, h⟩ => ?_⟩
  · interval_cases j <;> decide
  · exact absurd h.2.1 (by show ¬ 3 ≤ j; omega)
  · have hk3 : 3 ≤ k := hk
    have hk8 : k ≤ 8 := hn
    have e := h (k - 1) (by show k - 3 ≤ k - 1; omega) (by omega)
    have e2 : (List.replicate 8 (none : Option Nat))[k - 1]? = some none := by
      rw [List.getElem?_replicate, if_pos (by omega)]
    rw [e2] at e
    exact hp (Option.some.inj e).symm

theorem test_witness_arm :
    (classified .b).cycIrqEnable = false ∧ s0.cycIrqEnable = true ∧ (classified .b).profile ≠ .unclassified ∧
      s0.profile ≠ .unclassified ∧ State.reset.profile = .unclassified ∧ (-30 : Int) ≤ -30 ∧ (30 : Int) ≤ 30 ∧
      ((-31 : Int) < -30 ∨ (30 : Int) < -31) ∧ ((31 : Int) < -30 ∨ (30 : Int) < 31) := by decide

/-- At both ends of the offset range and for both profiles. -/
theorem test_witness_reference_ordering :
    State.reset.cfg.admitted = true ∧
      onNext (·.ref) (exec (.armRefs .a (-30)) (classified .a)) = some ⟨10, 60, 100, -30, true⟩ ∧
      onNext (·.ref) (exec (.armRefs .b 30) (classified .b)) = some ⟨70, 115, 155, 30, true⟩ := by decide

theorem test_witness_start_edge :
    { s0 with cap := 5, timer := 5 }.cap ≤ { s0 with cap := 5, timer := 5 }.timer ∧
      { s0 with cap := 5, timer := 4 }.timer < { s0 with cap := 5, timer := 4 }.cap ∧
      startEdge { s0 with cap := 0xFFF0, timer := 4 } = 0xFFFFFFF0 := by decide

/-- The target reached, one short of it, half the range ahead, and half the range back. -/
theorem test_witness_wait_until :
    0 ≤ ((110 : Time) - 110).toInt ∧ ((109 : Time) - 110).toInt < 0 ∧ ((0 : Time) - 0x7FFFFFFF).toInt < 0 ∧
      ((0x80000000 : Time) - 0).toInt < 0 := by decide

/-- Untimed; in a timed cycle, the last target inside the period, the first outside, a call exactly a nominal period late and
one cycle later. -/
theorem test_witness_wait_window :
    let tm : CycleTiming := ⟨171, 131, 131, 140⟩
    let s : State := { s0 with inp := { s0.inp with timing := some tm }, cap := 100, timer := 100 + 170, cnt := 100 + 170 }
    s0.inp.timing = none ∧ s.inp.timing = some tm ∧ sinceEdge s = 170 ∧ InWindow s tm 170 170 ∧ ¬ InWindow s tm 171 0 ∧
      InWindow s tm 90 260 ∧ ¬ InWindow s tm 90 261 ∧ Config.fA * 170 ≤ s.cfg.fMcu ∧ s.cfg.fMcu < Config.fA * 171 := by
  unfold InWindow
  refine ⟨rfl, rfl, by decide, ⟨by decide, fun f h => ?_⟩, fun h => absurd h.1 (by decide),
    ⟨by decide, fun f h => ?_⟩, fun h => absurd (h.2 Config.fA rfl) (by decide), by decide, by decide⟩
  · obtain rfl := Option.some.inj h
    decide
  · obtain rfl := Option.some.inj h
    decide

/-- A draw at the time-out, one above it, none, and no draw listed. -/
theorem test_witness_measure :
    { s0 with intervals := [some 1000, some 1001, none] }.intervals = some 1000 :: [some 1001, none] ∧
      1000 ≤ s0.cfg.measureTimeout ∧ s0.cfg.measureTimeout < 1001 ∧ s0.intervals = [] := by decide

theorem test_witness_driving :
    (dmaState 1 0).busReq = true ∧ s0.busReq = false ∧ (onBus true true 0xDF00 0).inp.ctrl.rw = true ∧
      (onBus false true 0xDF00 0).inp.ctrl.rw = false ∧ (onBus false true 0xDF00 0).busReq = false ∧
      quiet.timing = none ∧ (writeReg 0xDF06 1).ctrl.rw = false ∧ (writeReg 0xDF06 1).timing = none ∧
      { s0 with addrDir := .output }.busReq = false ∧ { s0 with rwDir := .output }.addrDir = .input := by decide

/-- Each bus driven against the host. -/
theorem test_witness_driven_against :
    DrivenAgainst { s0 with addrDir := .output } true .address ∧ DrivenAgainst { s0 with rwDir := .output } true .rw ∧
      DrivenAgainst { s0 with dataDir := .output } (writeReg 0xDF06 1).ctrl.rw .data ∧
      { s0 with env := [.cycle quiet] }.env = .cycle quiet :: [] :=
  ⟨⟨rfl, rfl⟩, ⟨rfl, rfl⟩, ⟨rfl, rfl, rfl⟩, rfl⟩

/-- The last cycle and one before it, with equal and with unequal bytes. -/
theorem test_witness_dma_cycles :
    DmaReady (dmaState 1 0x5A) ∧ DmaReady (dmaState 2 0x00) ∧ LastCycle (dmaState 1 0x5A) ∧
      ¬ LastCycle (dmaState 2 0x00) ∧ ¬ LastCycle (dmaState 0 0x00) ∧
      dataRead (dmaState 1 0x5A) = memRead (dmaState 1 0x5A).mem (perOffset (dmaState 1 0x5A)) ∧
      dataRead (dmaState 2 0x00) ≠ memRead (dmaState 2 0x00).mem (perOffset (dmaState 2 0x00)) := by
  unfold DmaReady LastCycle; decide

theorem test_witness_dma_needs :
    State.reset.ref.armed = false ∧ { s0 with profile := .unclassified }.profile = .unclassified ∧ refsReady s0 = true ∧
      s0.inp.timing = none ∧ s0.busReq = false ∧
      s0.addrDir = .input := by decide

/-- Two bytes across the end of peripheral memory, and a single byte. -/
theorem test_witness_stash_block :
    let s : State := { inDma 0b000 (regs 0x90 0xFFFF 0x7FFFF 2 0 0) with
      env := [dmaData 1, dmaData 2].map .cycle ++ [.mark .peripheral] }
    s.slot = .dma 0b000 ∧ s.busReq = true ∧ refsReady s = true ∧ s.cycIrqEnable = true ∧ s.dataDir = .input ∧
      s.env = [dmaData 1, dmaData 2].map .cycle ++ [.mark .peripheral] ∧ (∀ c ∈ [dmaData 1, dmaData 2], c.timing = none) ∧
      1 ≤ [dmaData 1, dmaData 2].length ∧ (s.reg.lenHi ++ s.reg.lenLo).toNat = [dmaData 1, dmaData 2].length ∧
      s.reg.acr.getLsbD 7 = false ∧ s.reg.acr.getLsbD 6 = false ∧ 1 ≤ [dmaData 1].length := by decide

theorem test_witness_verify_penultimate :
    let s := dmaState 2 0x00
    DmaReady s ∧ (bus true false 0 0).timing = none ∧ s.dataDir = .input ∧ s.reg.lenHi ++ s.reg.lenLo = 2#16 ∧ s.reg.command.getLsbD 5 = false ∧
      s.reg.status &&& 0x60 = 0 ∧ s.reg.acr.getLsbD 6 = false ∧ s.inp.data ≠ memRead s.mem (perOffset s) := by
  unfold DmaReady; decide

/-- A launch memory with bytes at both ends. -/
theorem test_witness_power_on :
    let mem0 : Mem := [(0, 0x12), (0x7FFFF, 0x34)]
    mem0.wf ∧ (∀ c ∈ mem0, c.1 < Params.example.reuSize.bytes) ∧
      memRead (State.powerOn Params.example mem0).mem 0x7FFFF = 0x34 ∧
      memRead (State.powerOn Params.example mem0).mem 1 = 0x00 := by decide

/-- Both invariants hold of the active state and of a transfer, and a step from each completes. -/
theorem test_witness_invariants :
    StateInvariant s0 ∧ StateInvariant (dmaState 1 0x77) ∧ BusInvariant s0 ∧ BusInvariant (dmaState 1 0x77) ∧
      BusInvariant State.reset ∧ onNext (fun _ => true) (onCycle (readReg 0xDF00) s0) = some true ∧
      onNext (fun _ => true) (onCycle (dmaData 1) (dmaState 1 0x77)) = some true ∧
      conforming (nextEvent { s0 with env := [.cycle quiet] }).1 = true ∧
      conforming (.op (.op8 0x42 .none)) = true := by
  refine ⟨?_, ?_, ?_, ?_, ?_, by decide, by decide, by decide, by decide⟩
  · unfold StateInvariant; decide
  · unfold StateInvariant; decide
  · exact ⟨rfl, ⟨by decide, by decide, by decide⟩, by decide, rfl, rfl, rfl, by decide, fun _ => ⟨rfl, rfl, rfl⟩⟩
  · exact ⟨rfl, ⟨by decide, by decide, by decide⟩, by decide, rfl, rfl, rfl, by decide, fun h => by cases h⟩
  · exact ⟨rfl, rfl, rfl, rfl, rfl, rfl, rfl⟩

/-- An untimed host cycle under the bus discipline, the host's next cycle among them. -/
theorem test_witness_never_stop :
    BusInvariant s0 ∧ (nextEvent { s0 with env := [.cycle quiet] }).1 = .cycle quiet ∧ quiet.timing = none :=
  ⟨test_witness_invariants.2.2.1, rfl, rfl⟩

/-- Each of the four changes of the bus request and the interrupt line happens in a conforming step. -/
theorem test_witness_change_points :
    s0.busReq = false ∧ onNext (·.busReq) (onCycle (writeReg 0xDF01 0x90) s0) = some true ∧
      (dmaState 1 0).busReq = true ∧ onNext (·.busReq) (onCycle (dmaData 1) (dmaState 1 0)) = some false ∧
      onNext (·.irqOut) (onCycle (dmaData 1) (inDma 0 (regs 0x90 0x1000 0 1 0xC0 0))) = some true ∧
      onNext (fun t => (t.irqOut, t.obs.word)) (onCycle (readReg 0xDF20) { s0 with irqOut := true }) =
        some (false, some 0x3DF20) ∧
      onNext (·.busReq) (step { dmaState 2 0 with env := [.op (.op8 0x42 .none)] }) = some false ∧
      conforming (.cycle quiet) = true := by decide

/-- A host cycle that writes the shadow, one that writes memory, one that sets and one that clears a status flag. -/
theorem test_witness_cycle_writers :
    onNext (·.shadow.bank) (onCycle (writeReg 0xDF06 0x0D) s0) = some 0x0D ∧ s0.shadow.bank = 0x00 ∧
      onNext (·.mem) (onCycle (dmaData 1) (dmaState 2 0)) = some [(0x100, 1)] ∧ (dmaState 2 0).mem ≠ [(0x100, 1)] ∧
      (dmaState 1 0).reg.status.getLsbD 6 = false ∧
      onNext (·.reg.status.getLsbD 6) (onCycle (dmaData 1) (dmaState 1 0)) = some true ∧
      onNext (·.reg.status.getLsbD 5)
        (onCycle (readReg 0xDF00) { s0 with reg := { s0.reg with status := 0x20 } }) = some false := by decide

/-- Each item, masked and enabled; the last byte of memory. -/
theorem test_witness_external_writes :
    s0.cycIrqEnable = true ∧ contended s0 = none ∧ contended (classified .b) = none ∧
      State.reset.cycIrqEnable = false ∧ 0x7FFFF < State.reset.cfg.reuSize.bytes ∧
      slotIsDma (.composite .reu) = false ∧
      onFault Fault.codes (step { State.reset with env := [.extWrite (.mem 0x80000 1)] }) = some [] ∧
      refusalOf (step { State.reset with env := [.extWrite (.savedSlot (.dma 2))] }) = some (.savedDma 2) ∧
      onNext (·.ref) (step { classified .b with env := [.extWrite (.ref .b (-30))] }) = some ⟨10, 55, 95, -30, true⟩ ∧
      onFault Fault.codes (step { classified .b with env := [.extWrite (.ref .a 31)] }) = some [3] ∧
      onFault Fault.codes (step { State.reset with env := [.extWrite (.ref .a 31)] }) = some [4] ∧
      (∀ x ∈ [ExtWrite.status 1, .reg .acr 1, .shadow .imr 1, .mem 0x7FFFF 1, .slot (.dma 1), .savedSlot (.composite .reu),
          .ref .b 30],
        { classified .b with env := [.extWrite x] }.env = .extWrite x :: [] ∧
          onNext (fun _ => true) (step { classified .b with env := [.extWrite x] }) = some true ∧
          faultOf (step { s0 with env := [.extWrite x] }) = some (.unmaskedMutation (itemOf x) s0)) := by decide

/-- A timed cycle with these times after its period. -/
def timed (c : HostCycle) (latency period second release done : Nat) : HostCycle :=
  { c with latency := latency, timing := some ⟨period, second, release, done⟩ }

/-- What stops a timed cycle, if anything: the code of its fault. -/
def timedFault (c : HostCycle) (s : State) : Option (List Nat) := onFault Fault.codes (onCycle c s)

/-- A timed cycle begins: one bus driven from both sides, the data bus still driven, and none. -/
theorem test_witness_timed_edge :
    let ok := timed quiet 5 171 131 131 140
    ok.timing = some ⟨171, 131, 131, 140⟩ ∧ { s0 with env := [.cycle ok] }.env = .cycle ok :: [] ∧
      contended s0 = none ∧ contended { s0 with dataDir := .output } = none ∧
      contended (latchCycle { ok with ctrl := { ok.ctrl with rw := false } } { s0 with dataDir := .output }) = some .data ∧
      contended (latchCycle ok { s0 with dataDir := .output }) = none ∧ timedFault ok { s0 with dataDir := .output } = some [1, 2] ∧
      edgeContention (latchCycle ok s0) = none ∧ s0.cycIrqEnable = true ∧ refsReady s0 = true ∧ s0.cycIrqPending = false ∧
      { s0 with cycIrqPending := true }.cycIrqPending = true ∧ Installed s0.slot ∧ Installed (dmaState 1 0).slot := by
  unfold Installed; decide

/-- The handler starting one cycle before and at the next match; phase-high one cycle before and at the period; the first
wait called a nominal period late, and one cycle later (170 cycles, `T_A` being about 170.5). -/
theorem test_witness_timed_start :
    timedFault (timed quiet 170 171 131 131 140) s0 = none ∧ timedFault (timed quiet 171 171 131 131 140) s0 = some [1] ∧
      timedFault (timed quiet 5 91 90 90 90) s0 = none ∧ timedFault (timed quiet 5 90 90 90 90) s0 = some [1] ∧
      timedFault (timed quiet 260 300 131 131 140) s0 = none ∧ timedFault (timed quiet 261 300 131 131 140) s0 = some [1] ∧
      timedFault (timed (dmaData 1) 210 300 131 131 140) (dmaState 2 0) = none ∧
      timedFault (timed (dmaData 1) 211 300 131 131 140) (dmaState 2 0) = some [1] := by decide

/-- The second wait: phase-low of a claimed read at the period, and called late; of a DMA write; phase-high of a DMA read.
A declined read makes none. -/
theorem test_witness_timed_second_wait :
    timedFault (timed (readReg 0xDF00) 5 131 90 130 140) s0 = none ∧
      timedFault (timed (readReg 0xDF00) 5 130 90 129 140) s0 = some [1] ∧ timedFault (timed quiet 5 130 90 129 140) s0 = none ∧
      onFault (fun f => (f.codes, f.left.dataDir)) (onCycle (timed (readReg 0xDF00) 5 171 301 131 140) s0) =
        some ([1], .output) ∧
      timedFault (timed (dmaData 1) 5 130 40 129 140) { dmaState 2 0 with slot := .dma 1 } = some [1] ∧
      timedFault (timed (dmaData 1) 5 91 40 129 140) (dmaState 2 0) = none ∧
      timedFault (timed (dmaData 1) 5 90 40 129 140) (dmaState 2 0) = some [1] := by decide

/-- A driven data bus released one cycle before the next start edge, and at it: TIMING and CONTENTION in one fault, with the
bus still driven. -/
theorem test_witness_timed_release :
    timedFault (timed (readReg 0xDF00) 5 171 90 170 170) s0 = none ∧
      ∃ u, u.dataDir = .output ∧ onCycle (timed (readReg 0xDF00) 5 171 90 171 171) s0 =
        .fault (.stillDriven 100 271 0x3DF00 u) :=
  ⟨by decide, _, rfl, rfl⟩

/-- The one fault has the info of both rows of R213. -/
theorem test_still_driven_info :
    (Fault.stillDriven 100 271 0x3DF00 s0).codes = [1, 2] ∧
      (Fault.stillDriven 100 271 0x3DF00 s0).timingInfo = some (.lateRelease, 100, 271) ∧
      (Fault.stillDriven 100 271 0x3DF00 s0).contentionInfo = some (.data, 0x3DF00) := by decide

/-- The handler done one cycle before the next sample point, and at it: a declined read, a write, a DMA read, which else
run as untimed. -/
theorem test_witness_timed_end :
    timedFault (timed quiet 5 171 131 131 260) s0 = none ∧ timedFault (timed quiet 5 171 131 131 261) s0 = some [1] ∧
      onNext (·.reg.bank) (onCycle (timed (writeReg 0xDF06 1) 5 171 131 131 260) s0) = some 1 ∧
      onFault (fun f => (f.codes, f.left.reg.bank)) (onCycle (timed (writeReg 0xDF06 1) 5 171 131 131 261) s0) =
        some ([1], 1) ∧
      onNext (·.mem) (onCycle (timed (dmaData 1) 5 171 131 131 260) (dmaState 2 0)) = some [(0x100, 1)] ∧
      timedFault (timed (dmaData 1) 5 171 131 131 261) (dmaState 2 0) = some [1] := by decide

end Sys2Proof.Tests
end

section
/-! What a step does with an event that is not a host cycle: an issued operation (00_scope.md R11) and the collaborator's
mark (10_state.md R56). -/

namespace Sys2Proof.Machine

/-- A word with an operation runs as that operation (30_encoding.md R82). -/
theorem runWord_of_decode_ok {w : OpWord} {i : Instr} (h : decode w = .ok i) (s : State) : runWord w s = exec i s := by
  unfold runWord
  rw [h]

/-- The flags of a region are written by external code only while the interrupt is masked (20_memory.md R74, R77). -/
theorem extMark_unmasked {s : State} (r : Region) (h : s.cycIrqEnable = true) :
    extMark r s = .fault (.unmaskedMutation .regionModified s) := if_pos h

/-- A listed operation word is run by the step (log entry 13). -/
theorem step_op {s : State} {w : OpWord} {rest : List Event} (hc : contended s = none) (he : s.env = .op w :: rest) :
    step s = runWord w { s with env := rest } := step_cons hc he

/-- A listed mark is run by the step (log entry 25). -/
theorem step_mark {s : State} {r : Region} {rest : List Event} (hc : contended s = none) (he : s.env = .mark r :: rest) :
    step s = extMark r { s with env := rest } := step_cons hc he

/-- A mark in a masked machine clears the flag of its region and nothing else. -/
theorem step_mark_masked {s : State} {r : Region} {rest : List Event} (hc : contended s = none)
    (he : s.env = .mark r :: rest) (hm : s.cycIrqEnable = false) :
    step s = .next (markRegion r { s with env := rest }) :=
  (step_mark hc he).trans (extMark_eq_next.2 ⟨hm, rfl⟩)

/-- A mark in an enabled machine faults. -/
theorem step_mark_unmasked {s : State} {r : Region} {rest : List Event} (hc : contended s = none)
    (he : s.env = .mark r :: rest) (hm : s.cycIrqEnable = true) :
    step s = .fault (.unmaskedMutation .regionModified { s with env := rest }) :=
  (step_mark hc he).trans (extMark_unmasked r hm)

/-- Settles O1: contention stops every step; else the listed event runs, an operation as decoded, a mark by the
interrupt's mask. -/
theorem stepRunsIssuedOperation : Obligations.StepRunsIssuedOperation := by
  unfold Obligations.StepRunsIssuedOperation
  refine ⟨?issued, ?contended, ?peripheral, ?cart, ?unmasked⟩
  case issued =>
    intro s w i rest hc he hd
    rw [step_op hc he, runWord_of_decode_ok hd]
  case contended => exact fun s b hb => step_contended hb
  case peripheral => exact fun s rest hc he hm => step_mark_masked hc he hm
  case cart => exact fun s i rest hc he hm => step_mark_masked hc he hm
  case unmasked => exact fun s r rest hc he hm => step_mark_unmasked hc he hm

end Sys2Proof.Machine
end

section
/-! The state invariant (10_state.md R21, R23, R28; 20_memory.md R61): every operation, and so every step, keeps it. -/

namespace Sys2Proof.Machine

/-! ### Classification and mode entry as updates -/

/-- A measurement uses up a draw and writes nothing else (41_phase_tracker.md R117). -/
theorem measureInterval_eq (s : State) : ∃ iv i, (measureInterval s).2 = { s with intervals := iv, freeIdx := i } := by
  unfold measureInterval
  cases s.intervals <;> exact ⟨_, _, rfl⟩

/-- The loop of CLASSIFY_CLOCK uses up draws and writes nothing else (41_phase_tracker.md R120). -/
theorem classifyLoop_eq (k run : Nat) (last : Profile) (s : State) :
    ∃ iv i, (classifyLoop k run last s).2 = { s with intervals := iv, freeIdx := i } := by
  induction k generalizing run last s with
  | zero => exact ⟨_, _, rfl⟩
  | succ k ih =>
    obtain ⟨iv, i, e⟩ := measureInterval_eq s
    unfold classifyLoop
    simp only []
    split
    · exact ⟨iv, i, e⟩
    · obtain ⟨iv', i', e'⟩ := ih (runLength _ last run) _ (measureInterval s).2
      exact ⟨iv', i', e'.trans (by rw [e])⟩

/-- CLASSIFY_CLOCK writes the profile, and uses up draws. -/
theorem classifyClock_eq (s : State) : ∃ p iv i,
    (classifyClock s).2 = { s with profile := p, intervals := iv, freeIdx := i } := by
  obtain ⟨iv, i, e⟩ := classifyLoop_eq s.cfg.classifyMax 0 .unclassified s
  exact ⟨_, iv, i, congrArg (fun u : State => { u with profile := profileOf (classifyClock s).1 }) e⟩

/-- A pass of WAIT_VALID_CLOCK writes the profile and the led, and uses up draws (41_phase_tracker.md R122). -/
theorem waitAttempt_eq (s : State) : ∃ p led iv i,
    (waitAttempt s).2 = { s with profile := p, led := led, intervals := iv, freeIdx := i } := by
  obtain ⟨p, iv, i, e⟩ := classifyClock_eq s
  exact ⟨p, _, iv, i, congrArg (fun u : State => { u with led := (waitAttempt s).2.led }) e⟩

/-- REU_MODE_ENTRY, if the mode uses the REU, writes registers, shadow, swap latch and flag, and draws at most once. -/
theorem reuModeEntry_eq (b : Bool) (s : State) : ∃ f sh sw rm i, (if b then reuModeEntry s else s) =
    { s with reg := f, shadow := sh, swapLatch := sw, regionModified := rm, freeIdx := i } := by
  cases b <;> exact ⟨_, _, _, _, _, rfl⟩

/-- The end of ENABLE_INTERFACE as one update (42_dispatch.md R134). -/
theorem enableFinish_eq (mode : Handler) (s : State) : ∃ f sh sw rm k i, enableFinish mode s = { s with
    reg := f, shadow := sh, swapLatch := sw, regionModified := rm, cart := k, freeIdx := i
    slot := mode, savedSlot := .none, cycIrqPending := false, cycIrqEnable := true, ifState := .active } := by
  obtain ⟨f, sh, sw, rm, i, e⟩ := reuModeEntry_eq (usesReu mode) s
  obtain ⟨k, j, e', -⟩ := enterVariant_eq mode (if usesReu mode then reuModeEntry s else s)
  exact ⟨f, sh, sw, rm, k, j, by unfold enableFinish; rw [e', e]⟩

/-- ENABLE_INTERFACE answers for a mode only (60_exceptions.md R228). -/
theorem execEnableInterface_eq_next {mode : Handler} {offset : Int} {s t : State} :
    execEnableInterface mode offset s = .next t ↔ mode.isMode = true ∧ enableMode mode offset s = .next t := by
  cases mode <;> simp [execEnableInterface, Handler.isMode]

/-- What ENABLE_INTERFACE can do after its start: the clock is classified and the references are armed, and the mode is
entered; or the clock is not, and the operation stays the next event (42_dispatch.md R134; log entry 7). -/
theorem enableMode_cases {mode : Handler} {offset : Int} {s t : State} (h : enableMode mode offset s = .next t) :
    (∃ p u, armRefs p offset (waitAttempt (enableBegin s)).2 = .next u ∧ t = (enableFinish mode u).setRet .none) ∨
      ∃ env, t = { (waitAttempt (enableBegin s)).2 with ret := .none, env := env } := by
  unfold enableMode at h
  simp only [] at h
  split at h
  · obtain ⟨u, hu, h⟩ := andThen_eq_next.1 h
    exact .inl ⟨_, u, hu, (Host.Outcome.next.inj h).symm⟩
  · exact .inr ⟨_, (Host.Outcome.next.inj h).symm⟩

/-! ### Writes by external code -/

/-- What a write by external code can do, and only while the interrupt is masked: registers, shadow or the slot; a byte of
memory; a saved slot that is no sequencer state; the references, by ARM_REFS (60_exceptions.md R226; log entries 19, 29). -/
theorem extWrite_cases {x : ExtWrite} {s t : State} (h : extWrite x s = .next t) : s.cycIrqEnable = false ∧
    ((∃ f sh slot, t = { s with reg := f, shadow := sh, slot := slot }) ∨
      (∃ p v, p < s.cfg.reuSize.bytes ∧ t = { s with mem := memWrite s.mem p v }) ∨
      (∃ saved, slotIsDma saved = false ∧ t = { s with savedSlot := saved }) ∨
      ∃ p offset, armRefs p offset s = .next t) := by
  unfold extWrite at h
  split at h
  · cases h
  · rename_i masked
    refine ⟨by simpa using masked, ?_⟩
    cases x with
    | status | reg | shadow | slot => exact .inl ⟨_, _, _, (Host.Outcome.next.inj h).symm⟩
    | mem p v =>
      simp only [] at h
      split at h
      · exact .inr (.inl ⟨p, v, by assumption, (Host.Outcome.next.inj h).symm⟩)
      · cases h
    | savedSlot saved =>
      cases saved with
      | dma code => cases h
      | none | terminal | composite => exact .inr (.inr (.inl ⟨_, rfl, (Host.Outcome.next.inj h).symm⟩))
    | ref p offset => exact .inr (.inr (.inr ⟨p, offset, h⟩))

/-! ### What keeps the state invariant -/

/-- `t` keeps the state invariant of `s`, and its parameters. -/
def KeepsState (s t : State) : Prop := StateInvariant s → StateInvariant t ∧ t.cfg = s.cfg

theorem KeepsState.trans {s t u : State} (h : KeepsState s t) (h' : KeepsState t u) : KeepsState s u := fun hs =>
  have ⟨ht, e⟩ := h hs
  have ⟨hu, e'⟩ := h' ht
  ⟨hu, e'.trans e⟩

/-- An operation without a stop keeps what its result keeps. -/
theorem keepsState_of_next {s u t : State} (h : (.next u : Out) = .next t) (hu : KeepsState s u) : KeepsState s t :=
  Host.Outcome.next.inj h ▸ hu

/-- What an operation returns is no part of the invariant. -/
theorem keepsState_of_andThen_setRet {s t : State} {o : Out} {r : Ret}
    (h : (andThen o fun u => .next (u.setRet r)) = .next t) (ho : ∀ u, o = .next u → KeepsState s u) :
    KeepsState s t := by
  obtain ⟨u, hu, h⟩ := andThen_eq_next.1 h
  exact keepsState_of_next h (ho u hu)

/-- Time passes within TIMER_BITS (10_state.md R23). -/
theorem elapse_keepsState (d : Nat) (s : State) : KeepsState s (elapse d s) :=
  fun ⟨hwf, hb, _, hcap, hsv, hlo, hhi⟩ => ⟨⟨hwf, hb, Nat.mod_lt _ (Nat.two_pow_pos _), hcap, hsv, hlo, hhi⟩, rfl⟩

/-- The capture latches the timer, and so fits TIMER_BITS (10_state.md R23). -/
theorem latchCycle_keepsState (c : HostCycle) (s : State) : KeepsState s (latchCycle c s) :=
  fun ⟨hwf, hb, _, _, hsv, hlo, hhi⟩ =>
    ⟨⟨hwf, hb, Nat.mod_lt _ (Nat.two_pow_pos _), Nat.mod_lt _ (Nat.two_pow_pos _), hsv, hlo, hhi⟩, rfl⟩

/-- A `savedSlot` without a sequencer state keeps R28. -/
theorem savedSlot_keepsState {h : Handler} (hh : slotIsDma h = false) (s : State) :
    KeepsState s { s with savedSlot := h } :=
  fun ⟨hwf, hb, ht, hcap, _, hlo, hhi⟩ => ⟨⟨hwf, hb, ht, hcap, hh, hlo, hhi⟩, rfl⟩

/-- A byte written below REU_SIZE keeps memory canonical and in range (20_memory.md R61, R72). -/
theorem memWrite_keepsState {p : Nat} (v : Byte) {s : State} (hp : p < s.cfg.reuSize.bytes) :
    KeepsState s { s with mem := memWrite s.mem p v } :=
  fun ⟨hwf, hb, h⟩ => ⟨⟨memWrite_wf p v hwf, memWrite_bounded v hp hb, h⟩, rfl⟩

/-- ARM_REFS bounds the offset it stores (41_phase_tracker.md R123). -/
theorem armRefs_keepsState {p : Profile} {offset : Int} {s t : State} (h : armRefs p offset s = .next t) :
    KeepsState s t := by
  obtain ⟨-, b, -, hlo, hhi, rfl⟩ := armRefs_eq_next.1 h
  exact fun ⟨hwf, hb, ht, hcap, hsv, _, _⟩ => ⟨⟨hwf, hb, ht, hcap, hsv, hlo, hhi⟩, rfl⟩

/-- A trigger saves a slot without a sequencer state (43_reu_registers.md R176). -/
theorem startTransfer_keepsState {code : BitVec 3} {s t : State} (h : startTransfer code s = .next t) :
    KeepsState s t := by
  obtain ⟨hs, rfl⟩ := startTransfer_eq_next.1 h
  exact savedSlot_keepsState hs s

theorem finalize_keepsState (eob ve : Bool) (s : State) : KeepsState s (finalize eob ve s) := by
  rw [finalize_eq]
  exact savedSlot_keepsState rfl s

theorem busSafeIdle_keepsState (s : State) : KeepsState s (busSafeIdle s) := by
  rw [busSafeIdle_eq]
  exact fun hs => ⟨hs, rfl⟩

theorem disableInterface_keepsState (s : State) : KeepsState s (disableInterface s) := by
  rw [disableInterface_eq]
  exact savedSlot_keepsState rfl s

theorem waitAttempt_keepsState (s : State) : KeepsState s (waitAttempt s).2 := by
  obtain ⟨p, led, iv, i, e⟩ := waitAttempt_eq s
  rw [e]
  exact fun hs => ⟨hs, rfl⟩

theorem enableBegin_keepsState (s : State) : KeepsState s (enableBegin s) := by
  unfold enableBegin
  split
  · exact disableInterface_keepsState s
  · exact fun hs => ⟨hs, rfl⟩

theorem enableFinish_keepsState (mode : Handler) (s : State) : KeepsState s (enableFinish mode s) := by
  obtain ⟨f, sh, sw, rm, k, i, e⟩ := enableFinish_eq mode s
  rw [e]
  exact savedSlot_keepsState rfl s

theorem enableInterface_keepsState {mode : Handler} {offset : Int} {s t : State}
    (h : execEnableInterface mode offset s = .next t) : KeepsState s t := by
  have begun := (enableBegin_keepsState s).trans (waitAttempt_keepsState _)
  obtain ⟨-, h⟩ := execEnableInterface_eq_next.1 h
  obtain ⟨p, u, hu, rfl⟩ | ⟨env, rfl⟩ := enableMode_cases h
  · exact begun.trans ((armRefs_keepsState hu).trans (enableFinish_keepsState mode u))
  · exact begun

/-! ### Handlers -/

/-- A write handler triggers only outside a transfer. -/
theorem WriteEffect.keepsState {s t : State} (h : WriteEffect s t) : KeepsState s t := by
  obtain ⟨f, sh, slot, saved, bus, k, l, rfl, -, ⟨-, rfl, -⟩ | ⟨hs, rfl, -⟩⟩ := h
  · exact fun hs => ⟨hs, rfl⟩
  · exact savedSlot_keepsState hs s

theorem ReadEffect.keepsState {c : Ctrl} {a : Addr} {s t : State} {v : Option Byte} (h : ReadEffect c a s t v) :
    KeepsState s t := by
  obtain ⟨f, irq, k, l, rfl, -⟩ := h
  exact fun hs => ⟨hs, rfl⟩

theorem sampled_keepsState (s : State) : KeepsState s (sampled s) := elapse_keepsState _ (enterHandler s)

theorem answered_keepsState (edge : Time) (v : Byte) (s : State) : KeepsState s (answered edge v s) :=
  elapse_keepsState _ { s with dataLatch := v, dataDir := .output }

theorem HostEffect.keepsState {s t : State} (h : HostEffect s t) : KeepsState s t := by
  obtain ⟨-, -, ⟨-, v, u, hu, rfl⟩ | ⟨-, u, hu, rfl⟩ | ⟨-, u, hu, rfl⟩⟩ := h
  · exact (sampled_keepsState s).trans (hu.keepsState.trans (answered_keepsState _ v u))
  · exact (sampled_keepsState s).trans hu.keepsState
  · exact (sampled_keepsState s).trans hu.keepsState

theorem perOffset_lt (s : State) : perOffset s < s.cfg.reuSize.bytes := perOffset_eq s ▸ perAddr_lt s.reg s.cfg.reuSize

/-- The accesses of a DMA cycle let time pass, and store a byte at the masked peripheral address at most. -/
theorem DmaAccess.keepsState {stores : Bool} {s u : State} (h : DmaAccess stores s u) : KeepsState s u := by
  obtain ⟨n, m, a, rl, dl, dd, o, mm, sw, rm, rfl, hm, -, -, -, -, hmem⟩ := h
  have time : KeepsState s { s with timer := m } :=
    fun ⟨hwf, hb, _, h⟩ => ⟨⟨hwf, hb, hm, h⟩, rfl⟩
  obtain rfl | ⟨-, v, rfl⟩ := hmem
  · exact time
  · exact time.trans (memWrite_keepsState (s := { s with timer := m }) v (perOffset_lt s))

/-- The end of a DMA cycle keeps `savedSlot`, or empties it. -/
theorem DmaEnd.keepsState {u t : State} (h : DmaEnd u t) : KeepsState u t := by
  obtain ⟨f, code, rfl, -⟩ | ⟨f, irq, rfl, -⟩ := h
  · exact fun hs => ⟨hs, rfl⟩
  · exact savedSlot_keepsState rfl u

theorem DmaEffect.keepsState {stores : Bool} {s t : State} (h : DmaEffect stores s t) : KeepsState s t := by
  obtain ⟨-, -, u, v, access, ending, rfl⟩ := h
  exact access.keepsState.trans ending.keepsState

/-! ### Operations, events and steps -/

/-- Every operation keeps the state invariant: those that write one of its fields by the rule of that field, the others
because they write none. -/
theorem exec_keepsState {i : Instr} {s t : State} (h : exec i s = .next t) : KeepsState s t := by
  cases i
  case wrCommand => exact keepsState_of_andThen_setRet h fun u hu => (wrCommand_effect hu).keepsState
  case wrFf00 => exact keepsState_of_andThen_setRet h fun u hu => (wrFf00_effect hu).keepsState
  case cmdStash | cmdFetch | cmdSwap | cmdVerify | trigger =>
    exact keepsState_of_andThen_setRet h fun u hu => startTransfer_keepsState hu
  case dmaStash => exact (dmaStash_effect h).keepsState
  case dmaFetch => exact (dmaFetch_effect h).keepsState
  case dmaSwap1 => exact (dmaSwap1_effect h).keepsState
  case dmaSwap2 => exact (dmaSwap2_effect h).keepsState
  case dmaVerify => exact (dmaVerify_effect h).keepsState
  case dmaVerifyErr => exact (dmaVerifyErr_effect h).keepsState
  case addrDirOut =>
    refine keepsState_of_andThen_setRet h fun u hu => ?_
    obtain ⟨-, rfl⟩ := addrDirOut_eq_next.1 hu
    exact fun hs => ⟨hs, rfl⟩
  case dataDirOut =>
    refine keepsState_of_andThen_setRet h fun u hu => ?_
    obtain ⟨-, rfl⟩ := dataDirOut_eq_next.1 hu
    exact fun hs => ⟨hs, rfl⟩
  case rwDrive =>
    refine keepsState_of_andThen_setRet h fun u hu => ?_
    obtain ⟨-, rfl⟩ := rwDrive_eq_next.1 hu
    exact fun hs => ⟨hs, rfl⟩
  case busSafeIdle => exact keepsState_of_next h (busSafeIdle_keepsState s)
  case measureInterval =>
    obtain ⟨iv, i, e⟩ := measureInterval_eq s
    exact keepsState_of_next h (by rw [e]; exact fun hs => ⟨hs, rfl⟩)
  case classifyClock =>
    obtain ⟨p, iv, i, e⟩ := classifyClock_eq s
    exact keepsState_of_next h (by rw [e]; exact fun hs => ⟨hs, rfl⟩)
  case waitValidClock => exact keepsState_of_next h (waitAttempt_keepsState s)
  case armRefs =>
    obtain ⟨u, hu, h⟩ := andThen_eq_next.1 h
    split at h
    · cases h
    · have armed : KeepsState s u := armRefs_keepsState hu
      exact keepsState_of_next h armed
  case waitUntil => exact keepsState_of_next (unlessFault_eq_next.1 h).2 (elapse_keepsState _ s)
  case installHandler =>
    change execInstallHandler _ s = _ at h
    unfold execInstallHandler at h
    split at h
    · cases h
    · exact keepsState_of_next h fun hs => ⟨hs, rfl⟩
  case enableInterface => exact enableInterface_keepsState h
  case disableInterface => exact keepsState_of_next h (disableInterface_keepsState s)
  case cycleTerminal => exact (cycleTerminal_effect h).keepsState
  case cycleComposite => exact (cycleComposite_effect h).keepsState
  case finalize eob ve => exact keepsState_of_next h (finalize_keepsState eob ve s)
  all_goals exact keepsState_of_next h fun hs => ⟨hs, rfl⟩

/-- A word that decodes to no operation changes what the last one returned, or stops (30_encoding.md R88, R89, R91, R94). -/
theorem runWord_keepsState {w : OpWord} {s t : State} (h : runWord w s = .next t) : KeepsState s t := by
  unfold runWord at h
  split at h
  · exact exec_keepsState h
  · exact keepsState_of_next h fun hs => ⟨hs, rfl⟩
  · exact keepsState_of_next h fun hs => ⟨hs, rfl⟩
  · exact absurd h reservedCycle_ne_next
  · cases h
  · cases h

theorem hostClock_keepsState {c : HostCycle} {s t : State} (h : hostClock c s = .next t) : KeepsState s t := by
  have latched := latchCycle_keepsState c s
  obtain ⟨-, rfl⟩ | ⟨-, -, eff⟩ | ⟨-, code, stores, -, eff, -⟩ := hostClock_cases h
  · exact latched
  · exact latched.trans eff.keepsState
  · exact latched.trans eff.keepsState

/-- External code writes a byte below REU_SIZE, saves no sequencer state, and arms by ARM_REFS (log entries 19, 29). -/
theorem extWrite_keepsState {x : ExtWrite} {s t : State} (h : extWrite x s = .next t) : KeepsState s t := by
  obtain ⟨-, ⟨f, sh, slot, rfl⟩ | ⟨p, v, hp, rfl⟩ | ⟨saved, hs, rfl⟩ | ⟨p, offset, h⟩⟩ := extWrite_cases h
  · exact fun hs => ⟨hs, rfl⟩
  · exact memWrite_keepsState v hp
  · exact savedSlot_keepsState hs s
  · exact armRefs_keepsState h

theorem extMark_keepsState {r : Region} {s t : State} (h : extMark r s = .next t) : KeepsState s t := by
  obtain ⟨-, rfl⟩ := extMark_eq_next.1 h
  obtain ⟨b, k, e⟩ := markRegion_eq r s
  rw [e]
  exact fun hs => ⟨hs, rfl⟩

theorem runEvent_keepsState {e : Event} {s t : State} (h : runEvent e s = .next t) : KeepsState s t := by
  cases e with
  | cycle c => exact hostClock_keepsState h
  | op w => exact runWord_keepsState h
  | extWrite x => exact extWrite_keepsState h
  | mark r => exact extMark_keepsState h

theorem nextEvent_keepsState (s : State) : KeepsState s (nextEvent s).2 := by
  obtain ⟨env, i, e⟩ := nextEvent_eq s
  rw [e]
  exact fun hs => ⟨hs, rfl⟩

/-- Settles O53: every event keeps the invariant of the state it runs on. -/
theorem stateInvariantKept : Obligations.StateInvariantKept := by
  unfold Obligations.StateInvariantKept
  intro s t hs h
  exact ((nextEvent_keepsState s).trans (runEvent_keepsState (step_eq_next.1 h).2)) hs

end Sys2Proof.Machine
end

section
/-! The bus discipline (10_state.md R25; 41_phase_tracker.md R121; 44_dma_sequencer.md R207): an interface rests, serves host
cycles, or runs a transfer, and every conforming event leads from one of these to one of these. -/

namespace Sys2Proof.Machine

/-! ### The three ways to keep the bus discipline -/

/-- The interface is idle, masked, and the bus untouched. -/
def Resting (s : State) : Prop := s.ifState = .idle ∧ s.cycIrqEnable = false ∧ BusUntouched s

/-- What every handler of an active interface finds and leaves. -/
def Serving (s : State) : Prop :=
  s.ifState = .active ∧ s.cycIrqEnable = true ∧ s.profile ≠ .unclassified ∧ s.ref.armed = true ∧ s.dataDir = .input

/-- The interface serves host cycles: a handler pair is installed, nothing is saved, and the bus is the host's. -/
def ServingHost (s : State) : Prop :=
  Serving s ∧ s.slot.isMode = true ∧ s.savedSlot = .none ∧ s.busReq = false ∧ s.addrDir = .input ∧ s.rwDir = .input

/-- A transfer runs: an unreserved sequencer state is installed, the pair to restore is saved, and the core owns the bus. -/
def Transferring (s : State) : Prop :=
  Serving s ∧ (∃ code, s.slot = .dma code ∧ code ≠ 4 ∧ code ≠ 5) ∧ s.savedSlot.isMode = true ∧ s.busReq = true

theorem Resting.busInvariant {s : State} (h : Resting s) : BusInvariant s := by
  obtain ⟨hi, hm, hb⟩ := h
  unfold BusInvariant
  rw [hi]
  exact ⟨hm, hb⟩

theorem ServingHost.busInvariant {s : State} (h : ServingHost s) : BusInvariant s := by
  obtain ⟨⟨hi, he, hp, ha, hd⟩, hm, hv, hb, had, hrw⟩ := h
  have ⟨inst, dma⟩ : Installed s.slot ∧ slotIsDma s.slot = false := by
    revert hm
    cases s.slot <;> simp [Handler.isMode, Installed, slotIsDma]
  unfold BusInvariant
  rw [hi]
  exact ⟨he, inst, hp, ha, hd, hb.trans dma.symm, fun h => by simp [dma] at h, fun _ => ⟨hv, had, hrw⟩⟩

theorem Transferring.busInvariant {s : State} (h : Transferring s) : BusInvariant s := by
  obtain ⟨⟨hi, he, hp, ha, hd⟩, ⟨code, hs, h4, h5⟩, hv, hb⟩ := h
  have inst : Installed s.slot := ⟨by simp [hs], by simpa [hs] using h4, by simpa [hs] using h5⟩
  have dma : slotIsDma s.slot = true := by rw [hs]; rfl
  unfold BusInvariant
  rw [hi]
  exact ⟨he, inst, hp, ha, hd, hb.trans dma.symm, fun _ => hv, fun h => by simp [dma] at h⟩

/-- The bus discipline is one of the three. -/
theorem busInvariant_iff {s : State} : BusInvariant s ↔ Resting s ∨ ServingHost s ∨ Transferring s := by
  refine ⟨fun h => ?_, fun h => h.elim (·.busInvariant) (·.elim (·.busInvariant) (·.busInvariant))⟩
  unfold BusInvariant at h
  cases hi : s.ifState with
  | idle =>
    rw [hi] at h
    exact .inl ⟨hi, h⟩
  | active =>
    rw [hi] at h
    obtain ⟨he, ⟨hn, h4, h5⟩, hp, ha, hd, hb, hdma, hhost⟩ := h
    have serving : Serving s := ⟨hi, he, hp, ha, hd⟩
    cases hs : s.slot with
    | none => exact absurd hs hn
    | terminal p | composite p =>
      rw [hs] at hb hhost
      exact .inr (.inl ⟨serving, by rw [hs]; rfl, (hhost rfl).1, hb, (hhost rfl).2⟩)
    | dma code =>
      rw [hs] at hb hdma h4 h5
      exact .inr (.inr ⟨serving, ⟨code, hs, by simpa using h4, by simpa using h5⟩, hdma rfl, hb⟩)

/-- Under the bus discipline a masked interface rests. -/
theorem BusInvariant.resting {s : State} (h : BusInvariant s) (hm : s.cycIrqEnable = false) : Resting s := by
  obtain h | ⟨⟨-, he, -⟩, -⟩ | ⟨⟨-, he, -⟩, -⟩ := busInvariant_iff.1 h
  · exact h
  · simp [hm] at he
  · simp [hm] at he

/-- Under the bus discipline an installed handler pair serves host cycles. -/
theorem BusInvariant.servingHost {s : State} (h : BusInvariant s) (he : s.cycIrqEnable = true)
    (hs : s.slot.isMode = true) : ServingHost s := by
  obtain ⟨-, hm, -⟩ | h | ⟨-, ⟨code, hc, -⟩, -⟩ := busInvariant_iff.1 h
  · simp [hm] at he
  · exact h
  · simp [hc, Handler.isMode] at hs

/-- Under the bus discipline an installed sequencer state runs a transfer. -/
theorem BusInvariant.transferring {s : State} (h : BusInvariant s) (he : s.cycIrqEnable = true) {code : BitVec 3}
    (hs : s.slot = .dma code) : Transferring s := by
  obtain ⟨-, hm, -⟩ | ⟨-, hm, -⟩ | h := busInvariant_iff.1 h
  · simp [hm] at he
  · simp [hs, Handler.isMode] at hm
  · exact h

/-! ### Handlers -/

theorem ReadEffect.servingHost {c : Ctrl} {a : Addr} {s t : State} {v : Option Byte} (h : ReadEffect c a s t v)
    (hs : ServingHost s) : ServingHost t := by
  obtain ⟨f, irq, k, l, rfl, -⟩ := h
  exact hs

/-- The initial state of a transfer is not reserved (30_encoding.md R89, R90). -/
theorem initialCode_unreserved (type : BitVec 2) : initialCode type ≠ 4 ∧ initialCode type ≠ 5 := by
  revert type
  decide

/-- A write handler leaves the bus to the host, or starts a transfer (43_reu_registers.md R176). -/
theorem WriteEffect.busInvariant {s t : State} (h : WriteEffect s t) (hs : ServingHost s) : BusInvariant t := by
  obtain ⟨f, sh, slot, saved, bus, k, l, rfl, -, ⟨rfl, rfl, rfl⟩ | ⟨-, rfl, rfl, type, rfl⟩⟩ := h
  · exact ServingHost.busInvariant hs
  · obtain ⟨serving, hm, -⟩ := hs
    exact Transferring.busInvariant ⟨serving, ⟨_, rfl, initialCode_unreserved type⟩, hm, rfl⟩

/-- A host cycle ends with the data bus released (42_dispatch.md R142). -/
theorem HostEffect.busInvariant {s t : State} (h : HostEffect s t) (hs : ServingHost s) : BusInvariant t := by
  have sampling : ServingHost (sampled s) := hs
  obtain ⟨-, -, ⟨-, v, u, hu, rfl⟩ | ⟨-, u, hu, rfl⟩ | ⟨-, u, hu, rfl⟩⟩ := h
  · obtain ⟨⟨hi, he, hp, ha, -⟩, rest⟩ := hu.servingHost sampling
    exact ServingHost.busInvariant ⟨⟨hi, he, hp, ha, rfl⟩, rest⟩
  · exact (hu.servingHost sampling).busInvariant
  · exact hu.busInvariant sampling

/-- A DMA cycle goes on to an unreserved state with the bus owned, or restores the saved pair and releases the bus
(44_dma_sequencer.md R205, R207). -/
theorem DmaEffect.busInvariant {stores : Bool} {s t : State} (h : DmaEffect stores s t) (hs : Transferring s) :
    BusInvariant t := by
  obtain ⟨-, -, u, v, ⟨n, m, a, rl, dl, dd, o, mm, sw, rm, rfl, -, -, -, -, hdd, -⟩, ending, rfl⟩ := h
  obtain ⟨⟨hi, he, hp, ha, hd⟩, -, hv, hb⟩ := hs
  have released : dd = .input := hdd.elim (·.trans hd) id
  obtain ⟨f, code, rfl, -, hcode⟩ | ⟨f, irq, rfl, -⟩ := ending
  · exact Transferring.busInvariant ⟨⟨hi, he, hp, ha, released⟩, ⟨code, rfl, hcode⟩, hv, hb⟩
  · exact ServingHost.busInvariant ⟨⟨hi, he, hp, ha, rfl⟩, hv, rfl, rfl, rfl, rfl⟩

/-! ### Enabling and disabling -/

/-- DISABLE_INTERFACE leaves an interface that rests, whatever it found (42_dispatch.md R135). -/
theorem disableInterface_resting (s : State) : Resting (disableInterface s) := by
  rw [disableInterface_eq]
  exact ⟨rfl, rfl, rfl, rfl, rfl, rfl, rfl, rfl⟩

/-- ENABLE_INTERFACE begins with an interface that rests (42_dispatch.md R134). -/
theorem enableBegin_resting {s : State} (h : BusInvariant s) : Resting (enableBegin s) := by
  unfold enableBegin
  split
  · obtain ⟨hi, -, hb⟩ := disableInterface_resting s
    exact ⟨hi, rfl, hb⟩
  · rename_i idle
    unfold BusInvariant at h
    rw [idle] at h
    exact ⟨idle, rfl, h.2⟩

theorem waitAttempt_resting {s : State} (h : Resting s) : Resting (waitAttempt s).2 := by
  obtain ⟨p, led, iv, i, e⟩ := waitAttempt_eq s
  rw [e]
  exact h

theorem armRefs_resting {p : Profile} {offset : Int} {s t : State} (hs : Resting s) (h : armRefs p offset s = .next t) :
    Resting t := by
  obtain ⟨-, b, -, -, -, rfl⟩ := armRefs_eq_next.1 h
  exact hs

/-- ARM_REFS arms only with the clock classified (60_exceptions.md R225). -/
theorem armRefs_armed {p : Profile} {offset : Int} {s t : State} (h : armRefs p offset s = .next t) :
    t.profile ≠ .unclassified ∧ t.ref.armed = true := by
  obtain ⟨hp, b, -, -, -, rfl⟩ := armRefs_eq_next.1 h
  exact ⟨hp, rfl⟩

/-- On a bus left untouched, with armed references and a classified clock, the entered mode serves the host. -/
theorem enableFinish_servingHost {mode : Handler} {s : State} (hmode : mode.isMode = true) (hs : Resting s)
    (hp : s.profile ≠ .unclassified) (ha : s.ref.armed = true) : ServingHost (enableFinish mode s) := by
  obtain ⟨f, sh, sw, rm, k, i, e⟩ := enableFinish_eq mode s
  obtain ⟨-, -, had, hd, hrw, hb, -, -⟩ := hs
  rw [e]
  exact ⟨⟨rfl, rfl, hp, ha, hd⟩, hmode, rfl, hb, had, hrw⟩

/-- ENABLE_INTERFACE leaves the mode entered, or, while it waits for a clock, an interface that rests. -/
theorem enableInterface_busInvariant {mode : Handler} {offset : Int} {s t : State} (hs : BusInvariant s)
    (h : execEnableInterface mode offset s = .next t) : BusInvariant t := by
  have waiting := waitAttempt_resting (enableBegin_resting hs)
  obtain ⟨hmode, h⟩ := execEnableInterface_eq_next.1 h
  obtain ⟨p, u, hu, rfl⟩ | ⟨env, rfl⟩ := enableMode_cases h
  · obtain ⟨hp, ha⟩ := armRefs_armed hu
    exact (enableFinish_servingHost hmode (armRefs_resting waiting hu) hp ha).busInvariant
  · exact Resting.busInvariant waiting

/-! ### Events and steps -/

theorem hostClock_busInvariant {c : HostCycle} {s t : State} (hs : BusInvariant s) (h : hostClock c s = .next t) :
    BusInvariant t := by
  obtain ⟨hm, rfl⟩ | ⟨he, ⟨p, hp⟩, eff⟩ | ⟨he, code, stores, hc, eff, -⟩ := hostClock_cases h
  · exact Resting.busInvariant (hs.resting hm)
  · have hmode : s.slot.isMode = true := by obtain hp | hp := hp <;> rw [hp] <;> rfl
    exact eff.busInvariant (hs.servingHost he hmode)
  · exact eff.busInvariant (hs.transferring he hc)

/-- External code writes while the interface rests, and no write of it drives the bus (60_exceptions.md R226). -/
theorem extWrite_resting {x : ExtWrite} {s t : State} (hs : Resting s) (h : extWrite x s = .next t) : Resting t := by
  obtain ⟨-, ⟨f, sh, slot, rfl⟩ | ⟨p, v, -, rfl⟩ | ⟨saved, -, rfl⟩ | ⟨p, offset, h⟩⟩ := extWrite_cases h
  · exact hs
  · exact hs
  · exact hs
  · exact armRefs_resting hs h

theorem extMark_resting {r : Region} {s t : State} (hs : Resting s) (h : extMark r s = .next t) : Resting t := by
  obtain ⟨-, rfl⟩ := extMark_eq_next.1 h
  obtain ⟨b, k, e⟩ := markRegion_eq r s
  rw [e]
  exact hs

/-- The operations of a conforming run (60_exceptions.md R235). -/
theorem conforming_op {w : OpWord} (h : conforming (.op w) = true) :
    (∃ mode offset, decode w = .ok (.enableInterface mode offset)) ∨ decode w = .ok .disableInterface := by
  unfold conforming at h
  simp only [] at h
  split at h
  · exact .inl ⟨_, _, by assumption⟩
  · exact .inr (by assumption)
  · cases h

theorem runEvent_busInvariant {e : Event} {s t : State} (hs : BusInvariant s) (he : conforming e = true)
    (h : runEvent e s = .next t) : BusInvariant t := by
  cases e with
  | cycle c => exact hostClock_busInvariant hs h
  | op w =>
    change runWord w s = .next t at h
    obtain ⟨mode, offset, hw⟩ | hw := conforming_op he <;> rw [runWord_of_decode_ok hw] at h
    · exact enableInterface_busInvariant hs h
    · exact Host.Outcome.next.inj h ▸ (disableInterface_resting s).busInvariant
  | extWrite x => exact (extWrite_resting (hs.resting (extWrite_cases h).1) h).busInvariant
  | mark r => exact (extMark_resting (hs.resting (extMark_eq_next.1 h).1) h).busInvariant

theorem nextEvent_busInvariant {s : State} (h : BusInvariant s) : BusInvariant (nextEvent s).2 := by
  obtain ⟨env, i, e⟩ := nextEvent_eq s
  rw [e]
  exact h

/-- Settles O55: every conforming event leads from one way to keep the discipline to one of the three. -/
theorem busInvariantKept : Obligations.BusInvariantKept := by
  unfold Obligations.BusInvariantKept
  intro s t hs he h
  exact runEvent_busInvariant (nextEvent_busInvariant hs) he (step_eq_next.1 h).2

end Sys2Proof.Machine
end

section
/-! What a host cycle may write (10_state.md R45, R49, R52; 41_phase_tracker.md R131), and the state after power-on
(70_reset_and_hazards.md R242). -/

namespace Sys2Proof.Machine

/-! ### Writers in one host cycle -/

/-- What no host cycle writes: references, profile, led, interface state and mask. -/
def CycleFrame (s t : State) : Prop :=
  t.ref = s.ref ∧ t.profile = s.profile ∧ t.led = s.led ∧ t.ifState = s.ifState ∧ t.cycIrqEnable = s.cycIrqEnable

/-- STATUS was read: the old flags answered, IP, EOB and VE cleared, the interrupt line deasserted (43_reu_registers.md
R152). -/
def StatusRead (s t : State) : Prop :=
  t.reg.status = s.reg.status &&& 0x1F ∧ t.obs.driven = some (s.reg.status ||| 0x10) ∧ t.irqOut = false

/-- The last cycle of a transfer set flags in STATUS (44_dma_sequencer.md R204). -/
def StatusSet (s t : State) : Prop :=
  (∃ st, t.reg.status = s.reg.status ||| st) ∧ t.slot = s.savedSlot ∧ t.busReq = false

/-- A read clears bits of STATUS only. -/
theorem StatusRead.getLsbD_of_false {s t : State} (h : StatusRead s t) {k : Nat}
    (hk : s.reg.status.getLsbD k = false) : t.reg.status.getLsbD k = false := by
  rw [h.1, BitVec.getLsbD_and, hk, Bool.false_and]

/-- The last cycle of a transfer sets bits of STATUS only. -/
theorem StatusSet.getLsbD_of_true {s t : State} (h : StatusSet s t) {k : Nat}
    (hk : s.reg.status.getLsbD k = true) : t.reg.status.getLsbD k = true := by
  obtain ⟨⟨st, e⟩, -⟩ := h
  rw [e, BitVec.getLsbD_or, hk, Bool.true_or]

/-- A handler pair's cycle writes no memory, the shadow only in a write cycle, and STATUS only as it is read. -/
theorem HostEffect.writes {s t : State} (h : HostEffect s t) :
    CycleFrame s t ∧ (t.shadow = s.shadow ∨ t.obs.data ≠ none) ∧ t.mem = s.mem ∧
      (t.reg.status = s.reg.status ∨ StatusRead s t) := by
  obtain ⟨-, -, ⟨-, v, u, ⟨f, irq, k, l, rfl, hf⟩, rfl⟩ | ⟨-, u, ⟨f, irq, k, l, rfl, hf⟩, rfl⟩ | ⟨-, u, hu, rfl⟩⟩ := h
  · refine ⟨⟨rfl, rfl, rfl, rfl, rfl⟩, .inl rfl, rfl, ?_⟩
    obtain ⟨rfl, -⟩ | ⟨rfl, rfl, hv, -⟩ := hf
    · exact .inl rfl
    · exact .inr ⟨rfl, hv, rfl⟩
  · refine ⟨⟨rfl, rfl, rfl, rfl, rfl⟩, .inl rfl, rfl, ?_⟩
    obtain ⟨rfl, -⟩ | ⟨-, -, hv, -⟩ := hf
    · exact .inl rfl
    · cases hv
  · obtain ⟨f, sh, slot, saved, bus, k, l, rfl, hf, -⟩ := hu
    exact ⟨⟨rfl, rfl, rfl, rfl, rfl⟩, .inr (by simp), rfl, .inl hf⟩

/-- A cycle of a transfer writes no shadow, memory only in a state that stores, and STATUS only as the transfer ends. -/
theorem DmaEffect.writes {stores : Bool} {s t : State} (h : DmaEffect stores s t) :
    CycleFrame s t ∧ t.shadow = s.shadow ∧ (t.mem = s.mem ∨ stores = true) ∧
      (t.reg.status = s.reg.status ∨ StatusSet s t) := by
  obtain ⟨-, -, u, v, ⟨n, m, a, rl, dl, dd, o, mm, sw, rm, rfl, -, -, -, -, -, hmem⟩, ending, rfl⟩ := h
  have memory : mm = s.mem ∨ stores = true := hmem.imp_right (·.1)
  obtain ⟨f, code, rfl, hf, -⟩ | ⟨f, irq, rfl, hf, -⟩ := ending
  · exact ⟨⟨rfl, rfl, rfl, rfl, rfl⟩, rfl, memory, .inl hf⟩
  · exact ⟨⟨rfl, rfl, rfl, rfl, rfl⟩, rfl, memory, .inr ⟨hf, rfl, rfl⟩⟩

/-- What one host cycle writes of shadow, memory and STATUS, by the slot that serves it; a masked one writes none of
them. -/
theorem hostClock_writes {c : HostCycle} {s t : State} (h : hostClock c s = .next t) :
    CycleFrame s t ∧ (t.shadow = s.shadow ∨ slotIsDma s.slot = false ∧ t.obs.data ≠ none) ∧
      (t.mem = s.mem ∨ s.slot = .dma 0 ∨ s.slot = .dma 6) ∧
      (t.reg.status = s.reg.status ∨ slotIsDma s.slot = false ∧ StatusRead s t ∨
        slotIsDma s.slot = true ∧ StatusSet s t) := by
  obtain ⟨-, rfl⟩ | ⟨-, ⟨p, hp⟩, eff⟩ | ⟨-, code, stores, hc, eff, hst⟩ := hostClock_cases h
  · exact ⟨⟨rfl, rfl, rfl, rfl, rfl⟩, .inl rfl, .inl rfl, .inl rfl⟩
  · have pair : slotIsDma s.slot = false := by obtain hp | hp := hp <;> rw [hp] <;> rfl
    obtain ⟨frame, shadow, memory, status⟩ := eff.writes
    exact ⟨frame, shadow.imp_right fun h => ⟨pair, h⟩, .inl memory, status.imp_right fun h => .inl ⟨pair, h⟩⟩
  · have dma : slotIsDma s.slot = true := by rw [hc]; rfl
    have storing : stores = true → s.slot = .dma 0 ∨ s.slot = .dma 6 := by
      rw [hc]
      exact fun h => (hst h).imp (congrArg _) (congrArg _)
    obtain ⟨frame, shadow, memory, status⟩ := eff.writes
    exact ⟨frame, .inl shadow, memory.imp_right storing, status.imp_right fun h => .inr ⟨dma, h⟩⟩

/-- A host cycle that answers runs on the state without its event. -/
theorem step_cycle_eq_next {s t : State} {c : HostCycle} (hc : (nextEvent s).1 = .cycle c) (h : step s = .next t) :
    ∃ env i, hostClock c { s with env := env, freeIdx := i } = .next t := by
  obtain ⟨env, i, e⟩ := nextEvent_eq s
  obtain ⟨-, h⟩ := step_eq_next.1 h
  rw [hc, e] at h
  exact ⟨env, i, h⟩

/-- Settles O58: each item is written by its one writer, and the flags change as STATUS is read or a transfer ends. -/
theorem hostCycleWriters : Obligations.HostCycleWriters := by
  unfold Obligations.HostCycleWriters
  intro s t c hc h
  obtain ⟨env, i, h⟩ := step_cycle_eq_next hc h
  obtain ⟨⟨href, hprofile, hled, hif, hmask⟩, shadow, memory, status⟩ := hostClock_writes h
  refine ⟨href, hprofile, hled, hif, hmask, shadow.resolve_left, memory.resolve_left, ?flagSet, ?flagCleared⟩
  case flagSet =>
    intro k _ h0 h1
    obtain e | ⟨-, read⟩ | ⟨dma, -, hslot, hbus⟩ := status
    · simp [e, h0] at h1
    · simp [read.getLsbD_of_false h0] at h1
    · exact ⟨dma, hslot, hbus⟩
  case flagCleared =>
    intro k h1 h0
    obtain e | ⟨pair, -, hdriven, hirq⟩ | ⟨-, ended⟩ := status
    · simp [e, h1] at h0
    · exact ⟨pair, hdriven, hirq⟩
    · simp [ended.getLsbD_of_true h1] at h0

/-! ### Power-on -/

theorem powerOn_stateInvariant {cfg : Params} {mem0 : Mem} (hwf : mem0.wf) (hb : ∀ c ∈ mem0, c.1 < cfg.reuSize.bytes) :
    StateInvariant (State.powerOn cfg mem0) :=
  ⟨hwf, hb, Nat.two_pow_pos _, Nat.two_pow_pos _, rfl, (by decide : (-30 : Int) ≤ 0), (by decide : (0 : Int) ≤ 30)⟩

theorem powerOn_busUntouched (cfg : Params) (mem0 : Mem) : BusUntouched (State.powerOn cfg mem0) :=
  ⟨rfl, rfl, rfl, rfl, rfl, rfl⟩

/-- The interface rests after power-on (70_reset_and_hazards.md R243). -/
theorem powerOn_resting (cfg : Params) (mem0 : Mem) : Resting (State.powerOn cfg mem0) :=
  ⟨rfl, rfl, powerOn_busUntouched cfg mem0⟩

/-- Settles O54: the values are those of POWER_ON, and the two invariants begin with it. -/
theorem powerOnState : Obligations.PowerOnState := by
  unfold Obligations.PowerOnState
  intro cfg mem0 hwf hb
  have reset : cfg = Params.example → mem0 = [] → State.powerOn cfg mem0 = State.reset := by
    rintro rfl rfl
    rfl
  exact ⟨rfl, rfl, rfl, rfl, rfl, rfl, rfl, rfl, powerOn_busUntouched cfg mem0, powerOn_stateInvariant hwf hb,
    (powerOn_resting cfg mem0).busInvariant, rfl, rfl, reset⟩

end Sys2Proof.Machine
end

section
/-! The encoding of host cycle words (30_encoding.md R83 to R88): a register operation is its direction, its mirror bits and
its index, and the trigger is one word. -/

namespace Sys2Proof.Machine

/-! ### The fields of a cycle word -/

theorem ofBool_getLsbD_eq_extractLsb' {n : Nat} (x : BitVec n) (k : Nat) :
    BitVec.ofBool (x.getLsbD k) = x.extractLsb' k 1 := by
  ext i hi
  obtain rfl : i = 0 := by omega
  simp

/-- A cycle word is its two control bits and its address (R83). -/
theorem control_append_address (w : CycleWord) :
    (BitVec.ofBool (w.getLsbD 17) ++ BitVec.ofBool (w.getLsbD 16) ++ w.extractLsb' 0 16 : CycleWord) = w := by
  rw [ofBool_getLsbD_eq_extractLsb', ofBool_getLsbD_eq_extractLsb',
    BitVec.extractLsb'_append_extractLsb'_eq_extractLsb' (by rfl),
    BitVec.extractLsb'_append_extractLsb'_eq_extractLsb' (by rfl), BitVec.extractLsb'_eq_self]

/-- A cycle word is its two control bits, its mirror bits and its index (R83, R85). -/
theorem control_append_mirror_append_index (w : CycleWord) :
    (BitVec.ofBool (w.getLsbD 17) ++ BitVec.ofBool (w.getLsbD 16) ++ w.extractLsb' 5 11 ++ w.extractLsb' 0 5 : CycleWord) =
      w := by
  rw [ofBool_getLsbD_eq_extractLsb', ofBool_getLsbD_eq_extractLsb',
    BitVec.extractLsb'_append_extractLsb'_eq_extractLsb' (by rfl),
    BitVec.extractLsb'_append_extractLsb'_eq_extractLsb' (by rfl),
    BitVec.extractLsb'_append_extractLsb'_eq_extractLsb' (by rfl), BitVec.extractLsb'_eq_self]

/-- The mask of a register row keeps the control bits and the index (R85). -/
theorem registerMask_fields (w : CycleWord) :
    (w &&& 0x3001F).getLsbD 17 = w.getLsbD 17 ∧ (w &&& 0x3001F).getLsbD 16 = w.getLsbD 16 ∧
      (w &&& 0x3001F).extractLsb' 0 5 = w.extractLsb' 0 5 := by
  refine ⟨by simp, by simp, ?_⟩
  rw [BitVec.extractLsb'_and]
  exact BitVec.and_allOnes

/-! ### Register operations -/

/-- The register operation of a direction, mirror bits and an index (R85). -/
def registerOp (rw : Bool) (m : BitVec 11) (i : BitVec 5) : Instr := if rw then decodeRead m i else decodeWrite m i

/-- With `io2` asserted register decode wins (R87). -/
theorem decodeHostCyc_io2 {w : CycleWord} (h : w.getLsbD 17 = true) :
    decodeHostCyc w = .ok (registerOp (w.getLsbD 16) (w.extractLsb' 5 11) (w.extractLsb' 0 5)) := by
  unfold decodeHostCyc registerOp
  rw [if_pos h]
  split <;> rfl

theorem decode_registerWord (rw : Bool) (m : BitVec 11) (i : BitVec 5) :
    decode (registerWord rw m i) = .ok (registerOp rw m i) := by
  cases rw
  case false => exact decode_writeWord m i
  case true => exact decode_readWord m i

/-- Every index encodes, in each direction, as it decodes (R85). -/
theorem encode_registerOp (rw : Bool) (m : BitVec 11) (i : BitVec 5) :
    encode (registerOp rw m i) = registerWord rw m i := by
  obtain ⟨n⟩ := i
  cases rw <;> fin_cases n <;> rfl

/-- Indices 0x0C to 0x0F are one operation each way, and their low bits are its operand (R85). -/
theorem registerOp_unused0C0F (rw : Bool) (m : BitVec 11) (sub : BitVec 2) :
    registerOp rw m (3#3 ++ sub) = if rw then .rdUnused0C0F m sub else .wrUnused0C0F m sub := by
  obtain ⟨n⟩ := sub
  cases rw <;> fin_cases n <;> rfl

/-- Indices 0x10 to 0x1F are one operation each way, and their low bits are its operand (R85). -/
theorem registerOp_unused101F (rw : Bool) (m : BitVec 11) (sub : BitVec 4) :
    registerOp rw m (1#1 ++ sub) = if rw then .rdUnused101F m sub else .wrUnused101F m sub := by
  obtain ⟨n⟩ := sub
  cases rw <;> fin_cases n <;> rfl

theorem registerOp_ne_wrFf00 (rw : Bool) (m : BitVec 11) (i : BitVec 5) : registerOp rw m i ≠ .wrFf00 := by
  intro h
  have word : registerWord rw m i = encode .wrFf00 := encode_registerOp rw m i ▸ congrArg encode h
  obtain ⟨io2, -⟩ := registerWord_fields (1#1 ++ BitVec.ofBool rw) m i
  rw [OpWord.hostCyc.inj word] at io2
  cases rw <;> cases io2

/-- What a register operation does is the read or the write of its index (R86). -/
theorem exec_registerOp (rw : Bool) (m : BitVec 11) (i : BitVec 5) (s : State) :
    exec (registerOp rw m i) s =
      if rw then returnByte (readIndex i s) else returnNothing (writeIndex i (dataRead s) s) := by
  cases rw
  case false => exact exec_decodeWrite m i s
  case true => exact exec_decodeRead m i s

/-! ### The trigger word -/

/-- With `io2` deasserted a word is the $FF00 write or is declined (R87, R88). -/
theorem decodeHostCyc_not_io2 {w : CycleWord} (h : w.getLsbD 17 = false) :
    decodeHostCyc w = if w.getLsbD 16 = false ∧ w.extractLsb' 0 16 = triggerAddr then .ok .wrFf00
      else .error (.declined w) := by
  unfold decodeHostCyc
  rw [h, if_neg Bool.false_ne_true]

/-- A word is the $FF00 write by its three fields (R87). -/
theorem decodeHostCyc_eq_wrFf00 {w : CycleWord} :
    decodeHostCyc w = .ok .wrFf00 ↔
      w.getLsbD 17 = false ∧ w.getLsbD 16 = false ∧ w.extractLsb' 0 16 = triggerAddr := by
  cases h : w.getLsbD 17
  case true => simp [decodeHostCyc_io2 h, registerOp_ne_wrFf00]
  case false => simp [decodeHostCyc_not_io2 h]

/-- The three fields of the $FF00 write fix the word (R87). -/
theorem triggerFields_iff {w : CycleWord} :
    w.getLsbD 17 = false ∧ w.getLsbD 16 = false ∧ w.extractLsb' 0 16 = triggerAddr ↔ w = 0x0FF00 := by
  constructor
  · rintro ⟨h17, h16, ha⟩
    rw [← control_append_address w, h17, h16, ha]
    rfl
  · rintro rfl
    exact ⟨rfl, rfl, rfl⟩

/-- The word of a decoded host cycle is that of its operation (R96). -/
theorem encode_of_decodeHostCyc {w : CycleWord} {i : Instr} (h : decodeHostCyc w = .ok i) : encode i = .hostCyc w := by
  cases h17 : w.getLsbD 17
  case true =>
    obtain rfl := Except.ok.inj ((decodeHostCyc_io2 h17).symm.trans h)
    have word := control_append_mirror_append_index w
    rw [h17] at word
    rw [encode_registerOp]
    exact congrArg OpWord.hostCyc word
  case false =>
    rw [decodeHostCyc_not_io2 h17] at h
    split at h
    case isTrue fields =>
      obtain rfl := Except.ok.inj h
      rw [triggerFields_iff.1 ⟨h17, fields⟩]
      rfl
    case isFalse => cases h

/-- Settles O9: the trigger word is fixed by its fields, and a register operation is never the $FF00 write. -/
theorem triggerDecode : Obligations.TriggerDecode := by
  unfold Obligations.TriggerDecode
  refine ⟨fun w => ?mask, fun w => decodeHostCyc_eq_wrFf00, fun w h => ?io2⟩
  case mask =>
    rw [decodeHostCyc_eq_wrFf00, triggerFields_iff, show w &&& 0x3FFFF = w from BitVec.and_allOnes]
  case io2 => exact ⟨_, decodeHostCyc_io2 h, registerOp_ne_wrFf00 _ _ _⟩

/-- Settles O8: the mask keeps the control bits and the index, which are all that a register operation's meaning reads. -/
theorem mirrorsSelectSameOperation : Obligations.MirrorsSelectSameOperation := by
  unfold Obligations.MirrorsSelectSameOperation
  intro v w i j s hv masked hi hj
  obtain ⟨v17, v16, vIndex⟩ := registerMask_fields v
  obtain ⟨w17, w16, wIndex⟩ := registerMask_fields w
  rw [masked] at v17 v16 vIndex
  have hw : w.getLsbD 17 = true := by rw [← w17, v17, hv]
  obtain rfl := Except.ok.inj ((decodeHostCyc_io2 hv).symm.trans hi)
  obtain rfl := Except.ok.inj ((decodeHostCyc_io2 hw).symm.trans hj)
  rw [exec_registerOp, exec_registerOp, ← v16, ← w16, ← vIndex, ← wIndex]

end Sys2Proof.Machine
end

section
/-! The encoding of COMMAND bytes, sequencer codes and operation numbers (30_encoding.md R89 to R94), and the round trip over
all four formats (R82, R96). -/

namespace Sys2Proof.Machine

/-! ### COMMAND bytes -/

/-- The transfer of a TYPE, with the other bits of its COMMAND byte (R89). -/
def transferOp (res6 auto ff00 : Bool) (res32 type : BitVec 2) : Instr :=
  match type with
  | 0 => .cmdStash res6 auto ff00 res32
  | 1 => .cmdFetch res6 auto ff00 res32
  | 2 => .cmdSwap res6 auto ff00 res32
  | 3 => .cmdVerify res6 auto ff00 res32

/-- A COMMAND byte is EXEC, three single bits, the reserved pair and TYPE (R89). -/
theorem exec_append_options_append_type (b : Byte) :
    (BitVec.ofBool (b.getLsbD 7) ++ BitVec.ofBool (b.getLsbD 6) ++ BitVec.ofBool (b.getLsbD 5) ++
      BitVec.ofBool (b.getLsbD 4) ++ b.extractLsb' 2 2 ++ b.extractLsb' 0 2 : Byte) = b := by
  simp only [ofBool_getLsbD_eq_extractLsb']
  rw [BitVec.extractLsb'_append_extractLsb'_eq_extractLsb' (by rfl),
    BitVec.extractLsb'_append_extractLsb'_eq_extractLsb' (by rfl),
    BitVec.extractLsb'_append_extractLsb'_eq_extractLsb' (by rfl),
    BitVec.extractLsb'_append_extractLsb'_eq_extractLsb' (by rfl),
    BitVec.extractLsb'_append_extractLsb'_eq_extractLsb' (by rfl), BitVec.extractLsb'_eq_self]

/-- The mask of a transfer row keeps EXEC and TYPE (R89). -/
theorem commandMask_fields (b : Byte) :
    (b &&& 0x83).getLsbD 7 = b.getLsbD 7 ∧ (b &&& 0x83).extractLsb' 0 2 = b.extractLsb' 0 2 := by
  refine ⟨by simp, ?_⟩
  rw [BitVec.extractLsb'_and]
  exact BitVec.and_allOnes

/-- The match of a TYPE's row asks for EXEC and the TYPE (R89). -/
theorem commandMatch_fields (type : BitVec 2) :
    (1#1 ++ 0#5 ++ type : Byte).getLsbD 7 = true ∧ (1#1 ++ 0#5 ++ type : Byte).extractLsb' 0 2 = type := by
  revert type
  decide

theorem decodeCmdType_exec {b : Byte} (h : b.getLsbD 7 = true) :
    decodeCmdType b =
      .ok (transferOp (b.getLsbD 6) (b.getLsbD 5) (b.getLsbD 4) (b.extractLsb' 2 2) (b.extractLsb' 0 2)) := by
  unfold decodeCmdType
  rw [if_pos h]
  generalize b.extractLsb' 0 2 = type
  obtain ⟨n⟩ := type
  fin_cases n <;> rfl

theorem decodeCmdType_noExec {b : Byte} (h : b.getLsbD 7 = false) : decodeCmdType b = .error (.noExec b) := by
  unfold decodeCmdType
  rw [h, if_neg Bool.false_ne_true]

theorem encode_transferOp (x a f : Bool) (r type : BitVec 2) :
    encode (transferOp x a f r type) = commandWord x a f r type := by
  obtain ⟨n⟩ := type
  fin_cases n <;> rfl

theorem decode_commandWord (x a f : Bool) (r type : BitVec 2) :
    decode (commandWord x a f r type) = .ok (transferOp x a f r type) := by
  revert x a f r type
  decide

/-- The byte of a decoded COMMAND is that of its transfer (R96). -/
theorem encode_of_decodeCmdType {b : Byte} {i : Instr} (h : decodeCmdType b = .ok i) : encode i = .cmdType b := by
  cases h7 : b.getLsbD 7
  case true =>
    obtain rfl := Except.ok.inj ((decodeCmdType_exec h7).symm.trans h)
    have byte := exec_append_options_append_type b
    rw [h7] at byte
    rw [encode_transferOp]
    exact congrArg OpWord.cmdType byte
  case false => cases (decodeCmdType_noExec h7).symm.trans h

/-- The match and mask of a TYPE's row (R89). -/
theorem commandMask_iff (b : Byte) (type : BitVec 2) :
    b &&& 0x83 = (1#1 ++ 0#5 ++ type : Byte) ↔ ∃ x a f r, decodeCmdType b = .ok (transferOp x a f r type) := by
  constructor
  · intro masked
    obtain ⟨exec, kind⟩ := commandMask_fields b
    obtain ⟨matchExec, matchKind⟩ := commandMatch_fields type
    rw [masked, matchExec] at exec
    rw [masked, matchKind] at kind
    exact ⟨_, _, _, _, kind ▸ decodeCmdType_exec exec.symm⟩
  · rintro ⟨x, a, f, r, h⟩
    have byte := encode_of_decodeCmdType h
    rw [encode_transferOp] at byte
    rw [← OpWord.cmdType.inj byte]
    clear h byte
    revert x a f r type
    decide

/-- What a transfer operation does depends on its TYPE only (log entry 12). -/
theorem exec_transferOp (x a f : Bool) (r type : BitVec 2) (s : State) :
    exec (transferOp x a f r type) s = andThen (startTransfer (initialCode type) s) fun t => .next (t.setRet .none) := by
  obtain ⟨n⟩ := type
  fin_cases n <;> rfl

/-- Outside a transfer the initial state of the TYPE is installed (43_reu_registers.md R176). -/
theorem exec_transferOp_start (x a f : Bool) (r type : BitVec 2) {s : State} (h : slotIsDma s.slot = false) :
    exec (transferOp x a f r type) s =
      .next { s with savedSlot := s.slot, slot := .dma (initialCode type), busReq := true, ret := .none } := by
  rw [exec_transferOp, startTransfer_eq_next.2 ⟨h, rfl⟩]
  rfl

/-- Settles O20: the rows select the TYPE, the TYPE selects the initial state, and the trigger is the transfer of the live
COMMAND's TYPE. -/
theorem commandTypesSelectState : Obligations.CommandTypesSelectState := by
  unfold Obligations.CommandTypesSelectState
  refine ⟨fun b => ?rows, fun s x a f r idle => ?states, fun s i h => ?trigger⟩
  case rows => exact ⟨commandMask_iff b 0, commandMask_iff b 1, commandMask_iff b 2, commandMask_iff b 3⟩
  case states =>
    exact ⟨exec_transferOp_start x a f r 0 idle, exec_transferOp_start x a f r 1 idle,
      exec_transferOp_start x a f r 2 idle, exec_transferOp_start x a f r 3 idle⟩
  case trigger =>
    cases h7 : s.reg.command.getLsbD 7
    case true =>
      obtain rfl := Except.ok.inj ((decodeCmdType_exec h7).symm.trans h)
      rw [exec_transferOp]
      rfl
    case false => cases (decodeCmdType_noExec h7).symm.trans h

/-! ### Sequencer codes and operation numbers -/

/-- The code of a decoded sequencer state is that of its operation (R96). -/
theorem encode_of_decodeDmaState {c : BitVec 3} {i : Instr} (h : decodeDmaState c = .ok i) : encode i = .dmaState c := by
  obtain ⟨n⟩ := c
  fin_cases n <;> cases h <;> rfl

/-- The operation numbers that R91 assigns. -/
def assignedNumbers : List Byte :=
  [0x01, 0x02, 0x03, 0x04, 0x05, 0x06, 0x07, 0x08, 0x09, 0x0A, 0x0B, 0x0C, 0x0D, 0x0E, 0x0F, 0x10, 0x20, 0x21, 0x22, 0x23,
    0x24, 0x25, 0x26, 0x27, 0x40, 0x41, 0x42, 0x43, 0x44, 0x60, 0x61]

/-- No argument gives an unassigned number an operation: the decoder does not look at it (R91). -/
theorem decodeOp8_unassigned (arg : Arg) : ∀ n : Byte, n ∉ assignedNumbers → decodeOp8 n arg = .error (.unassigned n) :=
  of_decide_eq_true rfl

/-- The number and the argument of a decoded operation are those of the operation (R96). -/
theorem encode_of_decodeOp8 {n : Byte} {arg : Arg} {i : Instr} (h : decodeOp8 n arg = .ok i) : encode i = .op8 n arg := by
  have assigned : n ∈ assignedNumbers := by
    by_contra unassigned
    cases (decodeOp8_unassigned arg n unassigned).symm.trans h
  fin_cases assigned <;> cases arg <;> cases h <;> rfl

/-! ### Round trips -/

/-- Settles O6: register words and COMMAND bytes give back their fields; the other operations carry their operands beside a
number or have none. -/
theorem decodeUndoesEncode : Obligations.DecodeUndoesEncode := by
  unfold Obligations.DecodeUndoesEncode
  intro i
  cases i
  case rdStatus | rdCommand | rdHostLo | rdHostHi | rdPerLo | rdPerHi | rdBank | rdLenLo | rdLenHi | rdImr | rdAcr
      | rdUnused0B | wrStatus | wrCommand | wrHostLo | wrHostHi | wrPerLo | wrPerHi | wrBank | wrLenLo | wrLenHi | wrImr
      | wrAcr | wrUnused0B =>
    exact decode_registerWord _ _ _
  case rdUnused0C0F m sub | wrUnused0C0F m sub =>
    exact (decode_registerWord _ m _).trans (congrArg _ (registerOp_unused0C0F _ m sub))
  case rdUnused101F m sub | wrUnused101F m sub =>
    exact (decode_registerWord _ m _).trans (congrArg _ (registerOp_unused101F _ m sub))
  case cmdStash | cmdFetch | cmdSwap | cmdVerify => exact decode_commandWord _ _ _ _ _
  all_goals rfl

/-- Settles O7, format by format. -/
theorem encodeUndoesDecode : Obligations.EncodeUndoesDecode := by
  unfold Obligations.EncodeUndoesDecode
  intro w i h
  cases w with
  | hostCyc w => exact encode_of_decodeHostCyc h
  | cmdType b => exact encode_of_decodeCmdType h
  | dmaState c => exact encode_of_decodeDmaState h
  | op8 n arg => exact encode_of_decodeOp8 h

/-- Settles O5: each word is decoded by its table. -/
theorem specWordsDecode : Obligations.SpecWordsDecode := by
  unfold Obligations.SpecWordsDecode
  exact ⟨rfl, rfl, rfl, rfl, rfl, rfl, rfl, rfl, rfl, rfl, rfl, rfl, rfl⟩

end Sys2Proof.Machine
end

section
/-! A register pair written in two cycles (30_encoding.md R98, 43_reu_registers.md R165): the half-autoload of the second
write reloads the first half from the shadow, where the first write stored it. -/

namespace Sys2Proof.Machine

/-! ### Registers after a write -/

@[simp] theorem RegFile.get_put_same (f : RegFile) (r : Reg) (v : Byte) : (f.put r v).get r = v := by
  cases r <;> rfl

theorem RegFile.get_put_other (f : RegFile) {r k : Reg} (v : Byte) (h : k ≠ r) : (f.put r v).get k = f.get k := by
  cases r <;> cases k <;> trivial

@[simp] theorem Shadow.get_put_same (f : Shadow) (r : Reg) (v : Byte) : (f.put r v).get r = v := by
  cases r <;> rfl

theorem Shadow.get_put_other (f : Shadow) {r k : Reg} (v : Byte) (h : k ≠ r) : (f.put r v).get k = f.get k := by
  cases r <;> cases k <;> trivial

theorem partner_ne {r j : Reg} (h : partner r = some j) : j ≠ r := by
  rintro rfl
  cases j <;> cases h

theorem partner_symm {r j : Reg} (h : partner r = some j) : partner j = some r := by
  cases r <;> cases h <;> rfl

/-- REG_WRITE to a half of a pair: the byte in live and shadow, the live partner from its shadow (R165). -/
theorem regWrite_half {r j : Reg} (h : partner r = some j) (v : Byte) (s : State) :
    regWrite r v s = { s with
      reg := (s.reg.put r v).put j (s.shadow.get j)
      shadow := s.shadow.put r v } := by
  cases r <;> cases h <;> rfl

/-! ### Two writes -/

/-- The operation stores the data byte with REG_WRITE (R166 to R172). -/
def WritesReg (i : Instr) (r : Reg) : Prop := ∀ s, exec i s = .next ((regWrite r (dataRead s) s).setRet .none)

/-- A cycle that writes `v` to a half of a pair, the data bus being the host's (R165). -/
theorem WritesReg.half {i : Instr} {r j : Reg} (hi : WritesReg i r) (h : partner r = some j) {v : Byte} {s t : State}
    (hin : s.dataDir = .input) (e : exec i { s with inp := { s.inp with data := v } } = .next t) :
    t.dataDir = .input ∧ t.reg = (s.reg.put r v).put j (s.shadow.get j) ∧ t.shadow = s.shadow.put r v := by
  have hd : dataRead { s with inp := { s.inp with data := v } } = v := by simp [dataRead, hin]
  rw [hi, hd, regWrite_half h] at e
  obtain rfl := Host.Outcome.next.inj e
  exact ⟨hin, rfl, rfl⟩

/-- Live and shadow of the pair `r`, `j` hold `v`, `w`, and every other live register is as it was in `s`. -/
def HoldsPair (r j : Reg) (v w : Byte) (s t : State) : Prop :=
  t.reg.get r = v ∧ t.reg.get j = w ∧ t.shadow.get r = v ∧ t.shadow.get j = w ∧
    ∀ k, k ≠ r → k ≠ j → t.reg.get k = s.reg.get k

theorem HoldsPair.symm {r j : Reg} {v w : Byte} {s t : State} (h : HoldsPair r j v w s t) : HoldsPair j r w v s t := by
  obtain ⟨hr, hj, hr', hj', other⟩ := h
  exact ⟨hj, hr, hj', hr', fun k hkj hkr => other k hkr hkj⟩

/-- The operation `p` runs with the data byte `v` on the bus, then `q` with `w`. -/
def RunsInTurn (p q : Instr) (v w : Byte) (s t : State) : Prop :=
  ∃ u, exec p { s with inp := { s.inp with data := v } } = .next u ∧
    exec q { u with inp := { u.inp with data := w } } = .next t

/-- Both halves written, the half `r` first. -/
theorem holdsPair_of_two_writes {r j : Reg} {p q : Instr} (hp : WritesReg p r) (hq : WritesReg q j)
    (h : partner r = some j) {v w : Byte} {s t : State} (hin : s.dataDir = .input) (e : RunsInTurn p q v w s t) :
    HoldsPair r j v w s t := by
  obtain ⟨u, e1, e2⟩ := e
  obtain ⟨uin, ureg, ushadow⟩ := hp.half h hin e1
  obtain ⟨-, treg, tshadow⟩ := hq.half (partner_symm h) uin e2
  have ne := partner_ne h
  refine ⟨?_, ?_, ?_, ?_, fun k hr hj => ?_⟩
  · rw [treg, ushadow, RegFile.get_put_same, Shadow.get_put_same]
  · rw [treg, RegFile.get_put_other _ _ ne, RegFile.get_put_same]
  · rw [tshadow, ushadow, Shadow.get_put_other _ _ ne.symm, Shadow.get_put_same]
  · rw [tshadow, Shadow.get_put_same]
  · rw [treg, RegFile.get_put_other _ _ hr, RegFile.get_put_other _ _ hj, ureg, RegFile.get_put_other _ _ hj,
      RegFile.get_put_other _ _ hr]

/-- The two orders of writing a pair leave the same. -/
theorem holdsPair_of_either_order {r j : Reg} {p q : Instr} (hp : WritesReg p r) (hq : WritesReg q j)
    (h : partner r = some j) {v w : Byte} {s t : State} (hin : s.dataDir = .input)
    (e : RunsInTurn p q v w s t ∨ RunsInTurn q p w v s t) :
    HoldsPair r j v w s t := by
  obtain e | e := e
  · exact holdsPair_of_two_writes hp hq h hin e
  · exact (holdsPair_of_two_writes hq hp (partner_symm h) hin e).symm

/-- Settles O22: each pair's two operations store their halves, and the second write reloads the first half. -/
theorem pairWrittenInEitherOrder : Obligations.PairWrittenInEitherOrder := by
  unfold Obligations.PairWrittenInEitherOrder
  intro s m lo hi hin
  refine ⟨fun t e => ?host, fun t e => ?peripheral, fun t e => ?length, ⟨_, _, rfl, rfl⟩⟩
  case host =>
    obtain ⟨hlo, hhi, hlo', hhi', -⟩ :=
      holdsPair_of_either_order (r := .hostLo) (fun _ => rfl) (fun _ => rfl) rfl hin e
    exact ⟨congrArg₂ (· ++ ·) hhi hlo, congrArg₂ (· ++ ·) hhi' hlo'⟩
  case peripheral =>
    obtain ⟨hlo, hhi, hlo', hhi', other⟩ :=
      holdsPair_of_either_order (r := .perLo) (fun _ => rfl) (fun _ => rfl) rfl hin e
    exact ⟨congrArg₂ (· ++ ·) hhi hlo, congrArg₂ (· ++ ·) hhi' hlo', other .bank (by decide) (by decide)⟩
  case length =>
    obtain ⟨hlo, hhi, hlo', hhi', -⟩ :=
      holdsPair_of_either_order (r := .lenLo) (fun _ => rfl) (fun _ => rfl) rfl hin e
    exact ⟨congrArg₂ (· ++ ·) hhi hlo, congrArg₂ (· ++ ·) hhi' hlo'⟩

end Sys2Proof.Machine
end

section
/-! The bus access primitives (40_bus_primitives.md R99 to R115): reads of the pins, the writes of one latch or line, and
the two ends of bus ownership, an operation that may not drive and a bus found driven against the host. -/

namespace Sys2Proof.Machine

/-! ### Reads of the pins -/

/-- A bus has two electrical modes (10_state.md R29), so a read that is not the input's is the latch's. -/
theorem addrRead_eq_ite (s : State) : addrRead s = if s.addrDir = .input then s.inp.addr else s.addrLatch := by
  unfold addrRead
  cases s.addrDir <;> rfl

theorem dataRead_eq_ite (s : State) : dataRead s = if s.dataDir = .input then s.inp.data else s.dataLatch := by
  unfold dataRead
  cases s.dataDir <;> rfl

/-- Only the R/W line of the control record can be the core's (10_state.md R31). -/
theorem ctrlRead_eq_ite (s : State) :
    ctrlRead s = if s.rwDir = .output then { s.inp.ctrl with rw := s.rwLatch } else s.inp.ctrl := by
  unfold ctrlRead
  cases s.rwDir <;> rfl

/-- Settles O39: each of the four returns its pins' read, which is the input or the latch by the bus's direction. -/
theorem pinReads : Obligations.PinReads := by
  unfold Obligations.PinReads
  intro s A C
  have hA : addrRead s = A := addrRead_eq_ite s
  have hC : ctrlRead s = C := ctrlRead_eq_ite s
  refine ⟨rfl, rfl, rfl, rfl, ?addrRead, ?dataRead, ?ctrlRead, ?busSample⟩
  case addrRead => rw [← hA]; rfl
  case dataRead => rw [← dataRead_eq_ite]; rfl
  case ctrlRead => rw [← hC]; rfl
  case busSample => rw [← hA, ← hC]; rfl

/-! ### Writes of latches and lines -/

/-- Settles O40: the eight numbers decode by their table, and each meaning is an update of one field. -/
theorem latchAndLineWrites : Obligations.LatchAndLineWrites := by
  unfold Obligations.LatchAndLineWrites
  intro s a v b l
  exact ⟨rfl, rfl, rfl, rfl, rfl, rfl, rfl, rfl, rfl, rfl, rfl, rfl, rfl, rfl, rfl, rfl⟩

/-- Settles O42: the six updates of BUS_SAFE_IDLE are one. -/
theorem busSafeIdleReleasesAll : Obligations.BusSafeIdle := by
  unfold Obligations.BusSafeIdle
  refine ⟨rfl, fun s => ?_⟩
  show Host.Outcome.next ((busSafeIdle s).setRet .none) = _
  rw [busSafeIdle_eq]
  rfl

/-! ### Driving a bus -/

/-- The address bus is not driven without bus ownership (R102). -/
theorem addrDirOut_unowned {s : State} (h : s.busReq = false) :
    addrDirOut s = .fault (.contention .address (currentWord s) s) := if_neg (by simp [h])

/-- R/W is not driven without bus ownership (R109). -/
theorem rwDrive_unowned {b : Bool} {s : State} (h : s.busReq = false) :
    rwDrive b s = .fault (.contention .rw (currentWord s) s) := if_neg (by simp [h])

/-- The data bus is not driven in a host write cycle (R106). -/
theorem dataDirOut_hostWrite {s : State} (hw : s.inp.ctrl.rw = false) (h : s.busReq = false) :
    dataDirOut s = .fault (.contention .data (currentWord s) s) := if_pos ⟨hw, h⟩

/-- The three operations that drive a bus are their primitives, and return nothing (R102, R106, R109). -/
theorem exec_addrDirOut (s : State) :
    exec .addrDirOut s = andThen (addrDirOut s) fun t => .next { t with ret := .none } := rfl

theorem exec_rwDrive (b : Bool) (s : State) :
    exec (.rwDrive b) s = andThen (rwDrive b s) fun t => .next { t with ret := .none } := rfl

theorem exec_dataDirOut (s : State) :
    exec .dataDirOut s = andThen (dataDirOut s) fun t => .next { t with ret := .none } := rfl

/-! ### A bus found driven against the host -/

/-- A step finds a bus driven in the current cycle, and names one of those driven (R115, log entry 27). -/
theorem step_of_drivenAgainst {s : State} {a : BusName} (h : DrivenAgainst s s.inp.ctrl.rw a) :
    ∃ b, DrivenAgainst s s.inp.ctrl.rw b ∧ step s = .fault (.contention b (currentWord s) s) := by
  obtain ⟨b, hb⟩ := drivenAgainst_contended h
  exact ⟨b, contended_drivenAgainst hb, step_contended hb⟩

/-- A host cycle finds contention at its start edge, the interrupt masked or not (R115, log entry 27). -/
theorem hostClock_contended {c : HostCycle} {s : State} {b : BusName} (h : contended (latchCycle c s) = some b) :
    hostClock c s = .fault (.contention b (currentWord (latchCycle c s)) (latchCycle c s)) := by
  have edge : edgeContention (latchCycle c s) =
      some (.contention b (currentWord (latchCycle c s)) (latchCycle c s)) := by
    unfold edgeContention contention
    rw [h]
    rfl
  show unlessFault (edgeContention (latchCycle c s)) _ = _
  rw [edge, unlessFault_some]

/-- The cycle that comes changes the host's R/W line and neither ownership nor a direction, so a bus driven against it is
found at its start edge, or before it where the current cycle has contention. -/
theorem step_cycle_of_drivenAgainst {s : State} {c : HostCycle} {rest : List Event} {a : BusName}
    (he : s.env = .cycle c :: rest) (h : DrivenAgainst s c.ctrl.rw a) :
    ∃ b u, (u = s ∨ u = latchCycle c { s with env := rest }) ∧ DrivenAgainst u u.inp.ctrl.rw b ∧
      step s = .fault (.contention b (currentWord u) u) := by
  cases hs : contended s with
  | some b => exact ⟨b, s, .inl rfl, contended_drivenAgainst hs, step_contended hs⟩
  | none =>
    have began : DrivenAgainst (latchCycle c { s with env := rest }) c.ctrl.rw a := by cases a <;> exact h
    obtain ⟨b, hb⟩ := drivenAgainst_contended began
    exact ⟨b, _, .inr rfl, contended_drivenAgainst hb, (step_cons hs he).trans (hostClock_contended hb)⟩

/-- Settles O41: the three operations by ownership and the host's R/W line, then the two points where a driven bus is
found. -/
theorem drivingNeedsOwnership : Obligations.DrivingNeedsOwnership := by
  unfold Obligations.DrivingNeedsOwnership
  intro s b
  refine ⟨rfl, rfl, rfl, ?addrOwned, ?addrUnowned, ?rwOwned, ?rwUnowned, ?dataDriven, ?dataHostWrite, ?current, ?coming⟩
  case addrOwned => exact fun h => by rw [exec_addrDirOut, addrDirOut_owned h, andThen_next]
  case addrUnowned => exact fun h => by rw [exec_addrDirOut, addrDirOut_unowned h, andThen_fault]
  case rwOwned => exact fun h => by rw [exec_rwDrive, rwDrive_owned h, andThen_next]
  case rwUnowned => exact fun h => by rw [exec_rwDrive, rwDrive_unowned h, andThen_fault]
  case dataDriven => exact fun h => by rw [exec_dataDirOut, dataDirOut_eq_next.2 ⟨h, rfl⟩, andThen_next]
  case dataHostWrite => exact fun hw h => by rw [exec_dataDirOut, dataDirOut_hostWrite hw h, andThen_fault]
  case current => exact fun ⟨_, h⟩ => step_of_drivenAgainst h
  case coming => exact fun c rest he ⟨_, h⟩ => step_cycle_of_drivenAgainst he h

end Sys2Proof.Machine
end

section
/-! Time of the phase clock tracker (41_phase_tracker.md R125 to R130): the latching of a start edge, the counter reads
and the wait on an instant. -/

namespace Sys2Proof.Machine

/-! ### The arrival of a host cycle -/

/-- Two waits in a row are one of their sum (41_phase_tracker.md R130). -/
theorem elapse_elapse (d e : Nat) (s : State) : elapse e (elapse d s) = elapse (d + e) s := by
  ext1 <;> simp [BitVec.ofNat_add, BitVec.add_assoc, Nat.add_assoc]

/-- The arrival of a host cycle as one update: the timer at the start edge is latched, and time goes on to the RESYNC
(41_phase_tracker.md R129). -/
theorem latchCycle_eq (c : HostCycle) (s : State) : latchCycle c s = { elapse (c.edge + c.latency) s with
    cap := (s.timer + c.edge) % 2 ^ s.cfg.timerBits
    cycIrqPending := true
    inp := ⟨c.addr, c.ctrl, c.data, c.latency, c.timing⟩
    obs := noObs } := by
  rw [← elapse_elapse]
  rfl

/-- A masked host cycle that finds no contention at its start edge is its arrival alone. -/
theorem hostClock_masked {c : HostCycle} {s : State} (hm : s.cycIrqEnable = false)
    (hedge : edgeContention (latchCycle c s) = none) : hostClock c s = .next (latchCycle c s) :=
  hostClock_eq_next.2 ⟨hedge, .inl ⟨hm, rfl⟩⟩

/-- Settles O3: the step runs the listed cycle, which the mask ends at its arrival. -/
theorem maskedCycleOnlyLatches : Obligations.MaskedCycleOnlyLatches := by
  unfold Obligations.MaskedCycleOnlyLatches
  refine fun s c rest => ⟨fun he hm hc hedge => ?masked, ?latched⟩
  case masked => exact (step_cons hc he).trans (hostClock_masked hm hedge)
  case latched =>
    rw [latchCycle_eq]
    simp [elapse, noObs, Nat.add_assoc]

/-! ### Counter and start edge -/

/-- The timer has not wrapped since the capture (42_dispatch.md R139). -/
theorem startEdge_of_le {s : State} (h : s.cap ≤ s.timer) : startEdge s = BitVec.ofNat 32 s.cap :=
  if_neg (Nat.not_lt.2 h)

/-- The timer has wrapped since the capture (42_dispatch.md R139). -/
theorem startEdge_of_lt {s : State} (h : s.timer < s.cap) :
    startEdge s = BitVec.ofNat 32 s.cap - BitVec.ofNat 32 (2 ^ s.cfg.timerBits) := if_pos h

/-- Settles O36: NOW and RESYNC by their meanings, the start edge by the wrap of the timer. -/
theorem counterReads : Obligations.CounterReads := by
  unfold Obligations.CounterReads
  exact fun s => ⟨rfl, rfl, rfl, rfl, startEdge_of_le, startEdge_of_lt⟩

/-! ### WAIT_UNTIL -/

/-- A reached target takes no time (41_phase_tracker.md R127). -/
theorem waitTime_of_reached {t : Time} {s : State} (h : 0 ≤ (s.cnt - t).toInt) : waitTime t s = 0 := by
  have hmsb : (s.cnt - t).msb = false := by simpa [BitVec.msb_eq_toInt] using h
  simp [waitTime, hmsb]

/-- A target ahead takes the cycles up to it (41_phase_tracker.md R127). -/
theorem waitTime_of_ahead {t : Time} {s : State} (h : (s.cnt - t).toInt < 0) : waitTime t s = t - s.cnt := by
  have hmsb : (s.cnt - t).msb = true := by simpa [BitVec.msb_eq_toInt] using h
  simp [waitTime, hmsb]

/-- A wait on a target ahead ends exactly at it (log entry 8). -/
theorem cnt_add_waitTime_of_ahead {t : Time} {s : State} (h : (s.cnt - t).toInt < 0) : s.cnt + waitTime t s = t := by
  rw [waitTime_of_ahead h, BitVec.add_comm, BitVec.sub_add_cancel]

/-- After the wait the target is reached by the signed comparison (41_phase_tracker.md R127). -/
theorem reached_after_wait (t : Time) (s : State) : 0 ≤ (s.cnt + waitTime t s - t).toInt := by
  by_cases h : (s.cnt - t).toInt < 0
  · simp [cnt_add_waitTime_of_ahead h]
  · simpa [waitTime_of_reached (Int.not_lt.1 h)] using h

/-- A wait advances the counter by its duration, and the timer with it (log entry 8). -/
theorem waitUntil_eq (t : Time) (s : State) : waitUntil t s = { s with
    cnt := s.cnt + waitTime t s
    timer := (s.timer + (waitTime t s).toNat) % 2 ^ s.cfg.timerBits } := by
  simp [waitUntil, elapse]

/-- A call is late exactly when some nominal period lies between its target and it (41_phase_tracker.md R128). -/
theorem lateCall_eq_false {r call : Nat} {s : State} :
    lateCall r call s = false ↔ ∀ f, nominal s.profile = some f → (call - r) * f ≤ s.cfg.fMcu := by
  unfold lateCall
  cases nominal s.profile <;> simp

/-- A timed wait keeps its window (41_phase_tracker.md R128). -/
theorem waitFault_eq_none_iff_inWindow {edge r : Time} {call : Nat} {s : State} {tm : CycleTiming}
    (h : s.inp.timing = some tm) : waitFault edge r call s = none ↔ InWindow s tm r call :=
  (waitFault_eq_none h).trans (and_congr_right fun _ => lateCall_eq_false)

/-- A timed wait outside its window faults TIMING with the target it had (60_exceptions.md R213, R219). -/
theorem waitFault_of_not_inWindow {edge r : Time} {call : Nat} {s : State} {tm : CycleTiming}
    (h : s.inp.timing = some tm) (hw : ¬ InWindow s tm r call) :
    waitFault edge r call s = some (.timing .waitWindow edge (edge + r) s) := by
  unfold waitFault
  rw [h]
  exact if_neg fun ⟨hin, hcall⟩ => hw ⟨hin, lateCall_eq_false.1 hcall⟩

/-- A wait finds no fault where every timing record the cycle carries has its window kept. -/
theorem waitFault_none_of_inWindow {edge r : Time} {call : Nat} {s : State}
    (h : ∀ tm, s.inp.timing = some tm → InWindow s tm r call) : waitFault edge r call s = none := by
  cases ht : s.inp.timing with
  | none => exact waitFault_untimed ht
  | some tm => exact (waitFault_eq_none_iff_inWindow ht).2 (h tm ht)

/-- An issued wait, its window checked from the start edge (41_phase_tracker.md R127). -/
theorem exec_waitUntil (t : Time) (s : State) : exec (.waitUntil t) s =
    unlessFault
      (waitFault (s.cnt - BitVec.ofNat 32 (sinceEdge s)) (t - (s.cnt - BitVec.ofNat 32 (sinceEdge s))) (sinceEdge s) s)
      (.next ((waitUntil t s).setRet (.time (waitTime t s)))) := rfl

/-- Settles O37: the wait window decides between the wait, whose duration `waitTime` reaches the target, and TIMING. -/
theorem waitUntilReachesTarget : Obligations.WaitUntilReachesTarget := by
  unfold Obligations.WaitUntilReachesTarget
  intro s t edge
  refine ⟨fun hwin => ⟨waitTime t s, (waitUntil t s).setRet (.time (waitTime t s)), ?completes, ?update, ?reached,
    waitTime_of_reached, ?exact⟩, fun tm htm hwin => ?outside⟩
  case completes => rw [exec_waitUntil, waitFault_none_of_inWindow hwin, unlessFault_none]
  case update =>
    rw [waitUntil_eq]
    rfl
  case reached =>
    rw [waitUntil_eq]
    exact reached_after_wait t s
  case exact =>
    rw [waitUntil_eq]
    exact cnt_add_waitTime_of_ahead
  case outside =>
    rw [exec_waitUntil, waitFault_of_not_inWindow htm hwin, unlessFault_some, BitVec.add_comm, BitVec.sub_add_cancel]

end Sys2Proof.Machine
end

section
/-! Measurement and classification of one interval (41_phase_tracker.md R116 to R119): the draw, the class over the exact
deviations, and the bands of tolerance around the two profiles. -/

namespace Sys2Proof.Machine

/-! ### MEASURE_INTERVAL -/

/-- A draw as MEASURE_INTERVAL returns it: none above the time-out (41_phase_tracker.md R117). -/
def withinTimeout (cfg : Params) (c : Option Nat) : Option Nat :=
  c.bind fun n => if n ≤ cfg.measureTimeout then some n else none

theorem withinTimeout_of_le {cfg : Params} {n : Nat} (h : n ≤ cfg.measureTimeout) :
    withinTimeout cfg (some n) = some n := if_pos h

theorem withinTimeout_of_lt {cfg : Params} {n : Nat} (h : cfg.measureTimeout < n) : withinTimeout cfg (some n) = none :=
  if_neg (Nat.not_le.2 h)

/-- No measurement is above the time-out. -/
theorem le_of_withinTimeout {cfg : Params} {c : Option Nat} {n : Nat} (h : withinTimeout cfg c = some n) :
    n ≤ cfg.measureTimeout := by
  obtain ⟨m, -, hm⟩ := Option.bind_eq_some_iff.1 h
  split at hm
  · rwa [← Option.some.inj hm]
  · cases hm

/-- A listed draw is measured and used up. -/
theorem measureInterval_cons {s : State} {c : Option Nat} {rest : List (Option Nat)} (h : s.intervals = c :: rest) :
    measureInterval s = (withinTimeout s.cfg c, { s with intervals := rest }) := by
  unfold measureInterval
  rw [h]
  rfl

/-- With none listed the draw is a free one (log entry 6). -/
theorem measureInterval_nil {s : State} (h : s.intervals = []) :
    measureInterval s = (withinTimeout s.cfg (Config.freeInterval s.freeIdx), { s with freeIdx := s.freeIdx + 1 }) := by
  unfold measureInterval
  rw [h]
  rfl

/-- An issued measurement returns the draw (41_phase_tracker.md R117). -/
theorem exec_measureInterval {s t : State} {d : Option Nat} (h : measureInterval s = (d, t)) :
    exec .measureInterval s = .next (t.setRet (.interval d)) := by
  show Host.Outcome.next ((measureInterval s).2.setRet (.interval (measureInterval s).1)) = _
  rw [h]

/-- Settles O38: the draw is the next listed one or a free one, cut at the time-out. -/
theorem measureIntervalDraws : Obligations.MeasureIntervalDraws := by
  unfold Obligations.MeasureIntervalDraws
  refine ⟨fun s c rest h => ⟨withinTimeout s.cfg c, exec_measureInterval (measureInterval_cons h), ?inTime, ?late, ?none⟩,
    fun s h => ⟨_, exec_measureInterval (measureInterval_nil h), fun n => le_of_withinTimeout⟩⟩
  case inTime =>
    rintro n rfl hn
    exact withinTimeout_of_le hn
  case late =>
    rintro n rfl hn
    exact withinTimeout_of_lt hn
  case none =>
    rintro rfl
    rfl

/-! ### CLASSIFY_SAMPLE -/

/-- The deviation of a sample from profile A (41_phase_tracker.md R116). -/
def devA (cfg : Params) (n : Nat) : Nat := deviation n Config.fA cfg.fMcu

/-- The deviation of a sample from profile B (41_phase_tracker.md R116). -/
def devB (cfg : Params) (n : Nat) : Nat := deviation n Config.fB cfg.fMcu

theorem devA_eq (cfg : Params) (n : Nat) : devA cfg n = ((n : Int) * 985248 - cfg.fMcu).natAbs := rfl

theorem devB_eq (cfg : Params) (n : Nat) : devB cfg n = ((n : Int) * 1022727 - cfg.fMcu).natAbs := rfl

/-- A deviation is within the tolerance (41_phase_tracker.md R118). -/
abbrev WithinTol (cfg : Params) (dev : Nat) : Prop := 1000 * dev ≤ cfg.tol * cfg.fMcu

/-- The relative deviation from A is at most the one from B: a tie is nearer to A (41_phase_tracker.md R118). -/
abbrev NearerA (cfg : Params) (n : Nat) : Prop := devA cfg n * 1022727 ≤ devB cfg n * 985248

/-- The class of a sample by its two tolerance tests and the comparison of its deviations (41_phase_tracker.md R118). -/
theorem classifySample_some (cfg : Params) (n : Nat) : classifySample cfg (some n) =
    if WithinTol cfg (devA cfg n) ∧ (¬ WithinTol cfg (devB cfg n) ∨ NearerA cfg n) then .a
    else if WithinTol cfg (devB cfg n) then .b else .unclassified := by
  simp only [classifySample, Bool.and_eq_true, Bool.or_eq_true, Bool.not_eq_true', decide_eq_true_eq,
    decide_eq_false_iff_not]
  exact if_congr Iff.rfl rfl (if_congr Iff.rfl rfl rfl)

theorem classifySample_eq_a {cfg : Params} {n : Nat} : classifySample cfg (some n) = .a ↔
    WithinTol cfg (devA cfg n) ∧ (¬ WithinTol cfg (devB cfg n) ∨ NearerA cfg n) := by
  rw [classifySample_some]
  split
  · exact iff_of_true rfl ‹_›
  · split <;> exact iff_of_false nofun ‹¬ (_ ∧ _)›

theorem classifySample_eq_b {cfg : Params} {n : Nat} : classifySample cfg (some n) = .b ↔
    WithinTol cfg (devB cfg n) ∧ ¬ (WithinTol cfg (devA cfg n) ∧ NearerA cfg n) := by
  rw [classifySample_some]
  split
  · rename_i h
    exact iff_of_false nofun fun ⟨hB, hA⟩ => hA ⟨h.1, h.2.resolve_left (not_not_intro hB)⟩
  · rename_i h
    split
    · exact iff_of_true rfl ⟨‹_›, fun ⟨hA, hnear⟩ => h ⟨hA, .inr hnear⟩⟩
    · exact iff_of_false nofun fun ⟨hB, _⟩ => ‹¬ WithinTol _ _› hB

theorem classifySample_eq_unclassified {cfg : Params} {n : Nat} : classifySample cfg (some n) = .unclassified ↔
    ¬ WithinTol cfg (devA cfg n) ∧ ¬ WithinTol cfg (devB cfg n) := by
  rw [classifySample_some]
  split
  · rename_i h
    exact iff_of_false nofun fun ⟨hA, _⟩ => hA h.1
  · rename_i h
    split
    · exact iff_of_false nofun fun ⟨_, hB⟩ => hB ‹_›
    · exact iff_of_true rfl ⟨fun hA => h ⟨hA, .inl ‹_›⟩, ‹_›⟩

/-- Settles O30: the three classes by the tolerance tests and the nearer profile. -/
theorem sampleClassification : Obligations.SampleClassification := by
  unfold Obligations.SampleClassification
  refine fun s c => ⟨rfl, classifySample s.cfg c, rfl, ?none, ?some⟩
  case none =>
    rintro rfl
    rfl
  case some =>
    rintro n rfl
    exact ⟨classifySample_eq_a, classifySample_eq_b, classifySample_eq_unclassified⟩

/-! ### The bands of tolerance -/

/-- A deviation inside the narrow band is within every admitted tolerance (41_phase_tracker.md R119). -/
theorem withinTol_of_narrow {cfg : Params} {dev : Nat} (htol : 40 ≤ cfg.tol) (h : 1000 * dev ≤ 40 * cfg.fMcu) :
    WithinTol cfg dev := h.trans (Nat.mul_le_mul_right _ htol)

/-- A deviation outside the wide band is within no admitted tolerance (41_phase_tracker.md R119). -/
theorem not_withinTol_of_wide {cfg : Params} {dev : Nat} (htol : cfg.tol < 60) (h : 60 * cfg.fMcu < 1000 * dev) :
    ¬ WithinTol cfg dev :=
  Nat.not_le.2 ((Nat.mul_le_mul_right _ htol.le).trans_lt h)

/-- Nearer to A, a sample in the narrow band of either profile lies in A's. -/
theorem narrow_of_nearerA {cfg : Params} {n : Nat} (hnear : NearerA cfg n)
    (h : 1000 * devA cfg n ≤ 40 * cfg.fMcu ∨ 1000 * devB cfg n ≤ 40 * cfg.fMcu) :
    1000 * devA cfg n ≤ 40 * cfg.fMcu := by
  unfold NearerA at hnear
  omega

/-- Nearer to B, a sample in the narrow band of either profile lies in B's. B's frequency is the greater one, so the
comparison of the relative deviations alone does not give it: a sample nearer to B is shorter than A's nominal period, and
where it is longer than B's, its deviation from B is a part of the gap between the two. -/
theorem narrow_of_not_nearerA {cfg : Params} {n : Nat} (hnear : ¬ NearerA cfg n)
    (h : 1000 * devA cfg n ≤ 40 * cfg.fMcu ∨ 1000 * devB cfg n ≤ 40 * cfg.fMcu) :
    1000 * devB cfg n ≤ 40 * cfg.fMcu := by
  rw [NearerA, devA_eq, devB_eq] at hnear
  rw [devA_eq, devB_eq] at h
  rw [devB_eq]
  omega

theorem classifySample_of_nearerA {cfg : Params} {n : Nat} (htol : 40 ≤ cfg.tol) (hnear : NearerA cfg n)
    (h : 1000 * devA cfg n ≤ 40 * cfg.fMcu ∨ 1000 * devB cfg n ≤ 40 * cfg.fMcu) :
    classifySample cfg (some n) = .a :=
  classifySample_eq_a.2 ⟨withinTol_of_narrow htol (narrow_of_nearerA hnear h), .inr hnear⟩

theorem classifySample_of_not_nearerA {cfg : Params} {n : Nat} (htol : 40 ≤ cfg.tol) (hnear : ¬ NearerA cfg n)
    (h : 1000 * devA cfg n ≤ 40 * cfg.fMcu ∨ 1000 * devB cfg n ≤ 40 * cfg.fMcu) :
    classifySample cfg (some n) = .b :=
  classifySample_eq_b.2 ⟨withinTol_of_narrow htol (narrow_of_not_nearerA hnear h), fun hA => hnear hA.2⟩

/-- A sample is rejected exactly when its smaller deviation exceeds the tolerance. -/
theorem classifySample_eq_unclassified_iff_min {cfg : Params} {n : Nat} :
    classifySample cfg (some n) = .unclassified ↔ cfg.tol * cfg.fMcu < 1000 * min (devA cfg n) (devB cfg n) := by
  rw [classifySample_eq_unclassified, WithinTol, WithinTol, ← Nat.mul_min_mul_left, lt_min_iff, Nat.not_le, Nat.not_le]

/-- Settles O31: the nearer profile inside the narrow bands, none outside the wide ones, by the smaller deviation
between. -/
theorem classificationBands : Obligations.ClassificationBands := by
  unfold Obligations.ClassificationBands
  intro cfg n _ hlo hhi dA dB
  refine ⟨fun h => ?narrow, fun hA hB => ?wide, fun _ _ => classifySample_eq_unclassified_iff_min⟩
  case narrow =>
    split
    · rename_i hnear
      exact classifySample_of_nearerA hlo hnear h
    · rename_i hnear
      exact classifySample_of_not_nearerA hlo hnear h
  case wide =>
    exact classifySample_eq_unclassified.2 ⟨not_withinTol_of_wide hhi hA, not_withinTol_of_wide hhi hB⟩

end Sys2Proof.Machine
end

section
/-! Classification of the clock (41_phase_tracker.md R120 to R122): the run of agreeing samples that the loop counts, the
first stable run of its samples, and a pass of the wait for a clock. -/

namespace Sys2Proof.Machine

/-! ### The run of agreeing samples -/

/-- `run` counts the classes at the end of `rs` that agree with `last`: a profile ends `rs` `m` times exactly when it is
`last` and `m` is at most `run`. -/
def TrailingRun (rs : List Profile) (last : Profile) (run : Nat) : Prop :=
  ∀ p m, p ≠ .unclassified → (List.replicate m p <:+ rs ↔ m = 0 ∨ p = last ∧ m ≤ run)

/-- Before the first sample there is no run. -/
theorem trailingRun_nil : TrailingRun [] .unclassified 0 := by
  intro p m hp
  simp [hp]

/-- A list ends in one more `p` than its front does where `p` is appended. -/
theorem replicate_succ_suffix_concat {α : Type} {m : Nat} {p r : α} {rs : List α} :
    List.replicate (m + 1) p <:+ rs ++ [r] ↔ p = r ∧ List.replicate m p <:+ rs := by
  rw [List.replicate_succ', ← List.reverse_prefix, ← List.reverse_prefix (l₁ := List.replicate m p)]
  simp

theorem runLength_unclassified (last : Profile) (run : Nat) : runLength .unclassified last run = 0 := by
  simp [runLength]

/-- An agreeing sample makes the run one longer (41_phase_tracker.md R120). -/
theorem runLength_same {r : Profile} (hr : r ≠ .unclassified) (run : Nat) : runLength r r run = run + 1 := by
  simp [runLength, hr]

/-- Another profile begins a new run (41_phase_tracker.md R120). -/
theorem runLength_other {r last : Profile} (hr : r ≠ .unclassified) (h : r ≠ last) (run : Nat) :
    runLength r last run = 1 := by
  simp [runLength, hr, h]

/-- The loop's counter keeps counting the trailing run. -/
theorem TrailingRun.concat {rs : List Profile} {last : Profile} {run : Nat} (h : TrailingRun rs last run)
    (r : Profile) : TrailingRun (rs ++ [r]) r (runLength r last run) := by
  intro p m hp
  cases m with
  | zero => simp
  | succ m =>
    rw [replicate_succ_suffix_concat, h p m hp]
    simp only [Nat.succ_ne_zero, false_or]
    refine and_congr_right ?_
    rintro rfl
    by_cases hl : p = last
    · subst hl
      rw [runLength_same hp]
      simp only [true_and]
      omega
    · rw [runLength_other hp hl]
      simp only [hl, false_and, or_false]
      omega

/-! ### Stable runs -/

/-- A stable run is completed by the `k`-th sample when the first `k` classes end in CLASSIFY_RUN times its profile. -/
theorem runAt_iff {cfg : Params} {xs : List (Option Nat)} {p : Profile} {k : Nat} : RunAt cfg xs p k ↔
    p ≠ .unclassified ∧ k ≤ xs.length ∧ List.replicate cfg.classifyRun p <:+ (xs.take k).map (sampleClass cfg) := by
  have at_index (hk : k ≤ xs.length) (hrun : cfg.classifyRun ≤ k) (i : Nat) (hi : i < cfg.classifyRun) :
      ((xs.take k).map (sampleClass cfg))[i + k - cfg.classifyRun]? =
        xs[i + k - cfg.classifyRun]?.map (sampleClass cfg) := by
    rw [List.getElem?_map, List.getElem?_take, if_pos (by omega)]
  rw [List.suffix_iff_getElem?]
  simp only [List.length_replicate, List.length_map, List.length_take, List.getElem_replicate]
  constructor
  · rintro ⟨hp, hrun, hk, h⟩
    rw [Nat.min_eq_left hk]
    refine ⟨hp, hk, hrun, fun i hi => ?_⟩
    rw [at_index hk hrun i hi]
    exact h _ (by omega) (by omega)
  · rintro ⟨hp, hk, hrun, h⟩
    rw [Nat.min_eq_left hk] at hrun h
    refine ⟨hp, hrun, hk, fun j hlo hhi => ?_⟩
    have hj := h (j + cfg.classifyRun - k) (by omega)
    rw [at_index hk hrun _ (by omega)] at hj
    rwa [show j + cfg.classifyRun - k + k - cfg.classifyRun = j by omega] at hj

/-- The next sample completes a stable run exactly when the loop's counter says so, and then of the sample's class. -/
theorem runAt_next_iff {cfg : Params} {pre ys : List (Option Nat)} {c : Option Nat} {last p : Profile} {run : Nat}
    (hrun : 1 ≤ cfg.classifyRun) (h : TrailingRun (pre.map (sampleClass cfg)) last run) :
    RunAt cfg (pre ++ c :: ys) p (pre.length + 1) ↔
      p = sampleClass cfg c ∧ cfg.classifyRun ≤ runLength (sampleClass cfg c) last run := by
  have taken : (pre ++ c :: ys).take (pre.length + 1) = pre ++ [c] := by
    rw [List.take_append, List.take_of_length_le (Nat.le_succ _), Nat.add_sub_cancel_left]
    rfl
  rw [runAt_iff, taken, List.map_append]
  constructor
  · rintro ⟨hp, -, hsuf⟩
    exact ((h.concat _ p _ hp).1 hsuf).resolve_left (by omega)
  · rintro ⟨rfl, hlen⟩
    have hp : sampleClass cfg c ≠ .unclassified := fun hu => by
      rw [hu, runLength_unclassified] at hlen
      omega
    exact ⟨hp, by simp, (h.concat _ _ _ hp).2 (.inr ⟨rfl, hlen⟩)⟩

/-- A sample completes runs of one profile only. -/
theorem RunAt.profile_unique {cfg : Params} {xs : List (Option Nat)} {p q : Profile} {k : Nat}
    (hrun : 1 ≤ cfg.classifyRun) (hp : RunAt cfg xs p k) (hq : RunAt cfg xs q k) : p = q := by
  obtain ⟨-, hk, -, hp⟩ := hp
  obtain ⟨-, -, -, hq⟩ := hq
  exact Option.some.inj ((hp (k - 1) (by omega) (by omega)).symm.trans (hq (k - 1) (by omega) (by omega)))

/-- The `k`-th sample completes a stable run, and no earlier one does (41_phase_tracker.md R120). -/
def FirstRunAt (cfg : Params) (xs : List (Option Nat)) (p : Profile) (k : Nat) : Prop :=
  RunAt cfg xs p k ∧ ∀ q j, j < k → ¬ RunAt cfg xs q j

/-- There is one first stable run. -/
theorem FirstRunAt.unique {cfg : Params} {xs : List (Option Nat)} {p q : Profile} {k j : Nat}
    (hrun : 1 ≤ cfg.classifyRun) (hp : FirstRunAt cfg xs p k) (hq : FirstRunAt cfg xs q j) : p = q ∧ k = j := by
  obtain rfl : k = j := Nat.le_antisymm (Nat.not_lt.1 fun h => hp.2 q j h hq.1) (Nat.not_lt.1 fun h => hq.2 p k h hp.1)
  exact ⟨hp.1.profile_unique hrun hq.1, rfl⟩

/-! ### The loop -/

/-- One round of the loop over a listed sample (41_phase_tracker.md R120). -/
theorem classifyLoop_cons {s : State} {c : Option Nat} {zs : List (Option Nat)} (h : s.intervals = c :: zs)
    (k run : Nat) (last : Profile) : classifyLoop (k + 1) run last s =
      if s.cfg.classifyRun ≤ runLength (sampleClass s.cfg c) last run then
        (some (sampleClass s.cfg c), { s with intervals := zs })
      else classifyLoop k (runLength (sampleClass s.cfg c) last run) (sampleClass s.cfg c) { s with intervals := zs } := by
  rw [classifyLoop, measureInterval_cons h]
  rfl

/-- What the loop answers over the listed samples `xs`: the first stable run, its samples used up, or none, all samples
used up. -/
def LoopAnswer (xs rest : List (Option Nat)) (s : State) (r : Option Profile × State) : Prop :=
  (∃ p k, FirstRunAt s.cfg xs p k ∧ r = (some p, { s with intervals := xs.drop k ++ rest })) ∨
    (∀ p k, ¬ RunAt s.cfg xs p k) ∧ r = (none, { s with intervals := rest })

/-- The loop that has taken the samples `pre` without a stable run, with its counter at their trailing run, answers over
all its samples. -/
theorem classifyLoop_answer {rest : List (Option Nat)} (ys : List (Option Nat)) {pre : List (Option Nat)} {run : Nat}
    {last : Profile} {s : State} (hrun : 1 ≤ s.cfg.classifyRun) (hs : s.intervals = ys ++ rest)
    (htrail : TrailingRun (pre.map (sampleClass s.cfg)) last run)
    (hnone : ∀ q j, j ≤ pre.length → ¬ RunAt s.cfg (pre ++ ys) q j) :
    LoopAnswer (pre ++ ys) rest s (classifyLoop ys.length run last s) := by
  induction ys generalizing pre run last s with
  | nil =>
    rw [List.append_nil] at hnone ⊢
    refine .inr ⟨fun p k h => hnone p k h.2.2.1 h, ?_⟩
    rw [← List.nil_append rest, ← hs]
    rfl
  | cons c ys ih =>
    rw [List.length_cons, classifyLoop_cons hs]
    have next (q) := runAt_next_iff (ys := ys) (c := c) (p := q) hrun htrail
    split
    · rename_i hdone
      refine .inl ⟨_, pre.length + 1, ⟨(next _).2 ⟨rfl, hdone⟩, fun q j hj => hnone q j (by omega)⟩, ?_⟩
      simp
    · rename_i hmore
      have htrail' : TrailingRun ((pre ++ [c]).map (sampleClass s.cfg)) (sampleClass s.cfg c)
          (runLength (sampleClass s.cfg c) last run) := by
        rw [List.map_append]
        exact htrail.concat _
      have hnone' : ∀ q j, j ≤ (pre ++ [c]).length → ¬ RunAt s.cfg (pre ++ [c] ++ ys) q j := by
        intro q j hj
        rw [List.length_append, List.length_singleton] at hj
        rw [List.append_assoc, List.singleton_append]
        obtain rfl | hlt := Nat.eq_or_lt_of_le hj
        · exact fun h => hmore ((next q).1 h).2
        · exact hnone q j (by omega)
      have hloop := ih (s := { s with intervals := ys ++ rest }) hrun rfl htrail' hnone'
      simpa [LoopAnswer] using hloop

/-! ### CLASSIFY_CLOCK -/

/-- CLASSIFY_CLOCK writes the profile its loop found (41_phase_tracker.md R120). -/
theorem exec_classifyClock {s t : State} {r : Option Profile}
    (h : classifyLoop s.cfg.classifyMax 0 .unclassified s = (r, t)) :
    exec .classifyClock s = .next { t with profile := profileOf r, ret := .classified r } := by
  show Host.Outcome.next ((classifyClock s).2.setRet (.classified (classifyClock s).1)) = _
  unfold classifyClock
  rw [h]
  rfl

/-- The loop of CLASSIFY_CLOCK over CLASSIFY_MAX listed samples. -/
theorem classifyLoop_listed {s : State} {xs rest : List (Option Nat)} (hrun : 1 ≤ s.cfg.classifyRun)
    (hs : s.intervals = xs ++ rest) (hlen : xs.length = s.cfg.classifyMax) :
    LoopAnswer xs rest s (classifyLoop s.cfg.classifyMax 0 .unclassified s) := by
  have hnone : ∀ q j, j ≤ ([] : List (Option Nat)).length → ¬ RunAt s.cfg ([] ++ xs) q j := by
    rintro q j hj ⟨-, hk, -⟩
    rw [List.length_nil] at hj
    omega
  rw [← hlen]
  exact classifyLoop_answer xs (pre := []) hrun hs trailingRun_nil hnone

/-- Settles O32: the loop's counter is the trailing run of its samples, so it stops at the first stable run, which is
unique. -/
theorem classifyClockFindsFirstRun : Obligations.ClassifyClockFindsFirstRun := by
  unfold Obligations.ClassifyClockFindsFirstRun
  intro s xs rest hrun hs hlen
  obtain ⟨p, k, hfirst, hloop⟩ | ⟨hno, hloop⟩ := classifyLoop_listed hrun hs hlen
  · refine ⟨fun q j hq hmin => ?_, fun hno => absurd hfirst.1 (hno p k)⟩
    obtain ⟨rfl, rfl⟩ := hfirst.unique hrun ⟨hq, hmin⟩
    exact exec_classifyClock hloop
  · exact ⟨fun p k h _ => absurd h (hno p k), fun _ => exec_classifyClock hloop⟩

/-! ### WAIT_VALID_CLOCK -/

/-- A pass of WAIT_VALID_CLOCK that classifies the clock is a CLASSIFY_CLOCK (41_phase_tracker.md R122). -/
theorem exec_waitValidClock_of_classified {s : State} (h : (classifyClock s).1 ≠ none) :
    exec .waitValidClock s = exec .classifyClock s := by
  have hsome : (classifyClock s).1.isSome = true := Option.isSome_iff_ne_none.2 h
  show execWaitValidClock s = execClassifyClock s
  simp only [execWaitValidClock, waitAttempt, hsome, if_true]
  rfl

/-- A failed pass toggles the led, and the operation is the next event again (41_phase_tracker.md R122; log entry 7). -/
theorem exec_waitValidClock_of_failed {s : State} (h : (classifyClock s).1 = none) :
    exec .waitValidClock s = .next { (classifyClock s).2 with
      led := !(classifyClock s).2.led
      env := .op (encode .waitValidClock) :: (classifyClock s).2.env
      ret := .classified none } := by
  show execWaitValidClock s = _
  simp only [execWaitValidClock, waitAttempt, h]
  rfl

/-- Settles O33: CLASSIFY_CLOCK writes neither led nor events, and a pass differs from it only where it failed. -/
theorem waitValidClockPass : Obligations.WaitValidClockPass := by
  unfold Obligations.WaitValidClockPass
  intro s
  obtain ⟨p, iv, i, e⟩ := classifyClock_eq s
  have hled : (classifyClock s).2.led = s.led := by rw [e]
  have henv : (classifyClock s).2.env = s.env := by rw [e]
  refine ⟨_, _, rfl, rfl, hled, henv, fun h => exec_waitValidClock_of_classified h, fun h => ?failed⟩
  case failed =>
    rw [exec_waitValidClock_of_failed h, hled, henv, h]
    rfl

end Sys2Proof.Machine
end

section
/-! The phase references (41_phase_tracker.md R121, R123, R124): what ARM_REFS writes or faults, and the order of the
instants it leaves. -/

namespace Sys2Proof.Machine

/-! ### ARM_REFS -/

/-- An unclassified operand has no base offsets to arm from, nor has an unclassified clock (log entry 24). -/
theorem armRefs_unclassified {p : Profile} {offset : Int} {s : State}
    (h : p = .unclassified ∨ s.profile = .unclassified) :
    armRefs p offset s = .fault (.unarmed .armRefs s) := by
  have hbase : armBase p s = none := by
    obtain rfl | h := h
    · simp [armBase, baseOf]
    · exact if_pos h
  unfold armRefs
  rw [hbase]

/-- An offset out of range faults, once the clock is classified (60_exceptions.md R218, R224). -/
theorem armRefs_badOffset {p : Profile} {b : Base} {offset : Int} {s : State} (hp : s.profile ≠ .unclassified)
    (hb : baseOf s.cfg p = some b) (h : offset < -30 ∨ 30 < offset) :
    armRefs p offset s = .fault (.badOffset offset s) := by
  unfold armRefs
  rw [armBase_classified hp, hb]
  exact if_pos h

/-- An issued ARM_REFS is external code: it arms while the interrupt is masked only (60_exceptions.md R226). -/
theorem exec_armRefs (p : Profile) (offset : Int) (s : State) : exec (.armRefs p offset) s =
    andThen (armRefs p offset s) fun t =>
      if s.cycIrqEnable then .fault (.unmaskedMutation .ref s) else .next (t.setRet .none) := rfl

/-- A classified profile's base offsets are those of the parameters (00_scope.md R12). -/
theorem baseOf_eq_some {cfg : Params} {p : Profile} {b : Base} :
    baseOf cfg p = some b ↔ p = .a ∧ b = cfg.baseA ∨ p = .b ∧ b = cfg.baseB := by
  cases p <;> simp [baseOf, eq_comm]

/-- Settles O34: with a base, the offset's range and the interrupt's mask decide; without one, nothing else is looked
at. -/
theorem armReferences : Obligations.ArmReferences := by
  unfold Obligations.ArmReferences
  refine fun s p b offset =>
    ⟨fun hb hp => ⟨fun hlo hhi hm => ?arms, fun hlo hhi hen => ?enabled, fun h => ?range⟩, fun h => ?none⟩
  case arms =>
    rw [exec_armRefs, armRefs_eq_next.2 ⟨hp, b, baseOf_eq_some.2 hb, hlo, hhi, rfl⟩, andThen_next, hm]
    rfl
  case enabled =>
    rw [exec_armRefs, armRefs_eq_next.2 ⟨hp, b, baseOf_eq_some.2 hb, hlo, hhi, rfl⟩, andThen_next, hen]
    rfl
  case range => rw [exec_armRefs, armRefs_badOffset hp (baseOf_eq_some.2 hb) h, andThen_fault]
  case none => rw [exec_armRefs, armRefs_unclassified h, andThen_fault]

/-! ### The order of the instants -/

/-- Armed references are the base offsets of the operand, each moved by the admitted offset. -/
theorem exec_armRefs_ref {p : Profile} {offset : Int} {s t : State} (h : exec (.armRefs p offset) s = .next t) :
    ∃ b, baseOf s.cfg p = some b ∧ -30 ≤ offset ∧ offset ≤ 30 ∧
      t.ref = ⟨refTime b.dmaHigh offset, refTime b.high offset, refTime b.low offset, offset, true⟩ := by
  obtain ⟨u, hu, hmask⟩ := andThen_eq_next.1 h
  obtain ⟨-, b, hb, hlo, hhi, rfl⟩ := armRefs_eq_next.1 hu
  split at hmask
  · cases hmask
  · exact ⟨b, hb, hlo, hhi, by rw [← Host.Outcome.next.inj hmask, setRet_ref]⟩

/-- An instant that fits 32 bits is the base offset moved by the offset exactly (41_phase_tracker.md R123). -/
theorem refTime_toNat {base : Nat} {offset : Int} (hlo : 0 ≤ base + offset) (hhi : base + offset < 4294967296) :
    ((refTime base offset).toNat : Int) = base + offset := by
  rw [refTime, BitVec.toNat_ofInt]
  omega

/-- The constraints on one profile's base offsets (00_scope.md R12). -/
theorem baseAdmitted_iff {b : Base} {f fMcu : Nat} : b.admitted f fMcu = true ↔
    30 ≤ b.dmaHigh ∧ b.dmaHigh < b.high ∧ b.high < b.low ∧ (b.low + 30) * f < fMcu ∧ b.low + 30 < 4294967296 := by
  simp [Base.admitted, and_assoc]

/-- Admitted parameters admit the base offsets of both profiles (00_scope.md R12). -/
theorem bases_of_admitted {cfg : Params} (h : cfg.admitted = true) :
    cfg.baseA.admitted Config.fA cfg.fMcu = true ∧ cfg.baseB.admitted Config.fB cfg.fMcu = true := by
  simp only [Params.admitted, Bool.and_eq_true] at h
  exact ⟨h.1.1.2, h.1.2⟩

/-- The instants of the base `b` moved by `offset`: in order, exact, and below the period of the frequency `f`. -/
def OrderedRefs (b : Base) (f fMcu : Nat) (offset : Int) (ref : ClockRef) : Prop :=
  ref.dmaHigh.toNat < ref.high.toNat ∧ ref.high.toNat < ref.low.toNat ∧ ref.low.toNat * f < fMcu ∧
    (ref.dmaHigh.toNat : Int) = b.dmaHigh + offset ∧ (ref.high.toNat : Int) = b.high + offset ∧
    (ref.low.toNat : Int) = b.low + offset

/-- Admitted base offsets give ordered instants for every admitted offset (41_phase_tracker.md R124). -/
theorem orderedRefs_of_admitted {b : Base} {f fMcu : Nat} {offset : Int} {ref : ClockRef} (hb : b.admitted f fMcu = true)
    (hlo : -30 ≤ offset) (hhi : offset ≤ 30)
    (href : ref = ⟨refTime b.dmaHigh offset, refTime b.high offset, refTime b.low offset, offset, true⟩) :
    OrderedRefs b f fMcu offset ref := by
  obtain ⟨hmin, hdh, hhl, hperiod, hfit⟩ := baseAdmitted_iff.1 hb
  have hd := refTime_toNat (base := b.dmaHigh) (offset := offset) (by omega) (by omega)
  have hh := refTime_toNat (base := b.high) (offset := offset) (by omega) (by omega)
  have hl := refTime_toNat (base := b.low) (offset := offset) (by omega) (by omega)
  have hle : (refTime b.low offset).toNat ≤ b.low + 30 := by omega
  have hdh' : (refTime b.dmaHigh offset).toNat < (refTime b.high offset).toNat := by omega
  have hhl' : (refTime b.high offset).toNat < (refTime b.low offset).toNat := by omega
  rw [href]
  exact ⟨hdh', hhl', (Nat.mul_le_mul_right f hle).trans_lt hperiod, hd, hh, hl⟩

/-- Settles O35: the operand is A or B, and the base offsets of either are admitted. -/
theorem referenceOrdering : Obligations.ReferenceOrdering := by
  unfold Obligations.ReferenceOrdering
  intro s t p offset hadm h
  obtain ⟨b, hb, hlo, hhi, href⟩ := exec_armRefs_ref h
  obtain ⟨admA, admB⟩ := bases_of_admitted hadm
  obtain ⟨rfl, rfl⟩ | ⟨rfl, rfl⟩ := baseOf_eq_some.1 hb
  · obtain ⟨hdh, hhl, instants⟩ := orderedRefs_of_admitted admA hlo hhi href
    exact ⟨hdh, hhl, fun _ => instants, nofun⟩
  · obtain ⟨hdh, hhl, instants⟩ := orderedRefs_of_admitted admB hlo hhi href
    exact ⟨hdh, hhl, nofun, fun _ => instants⟩

end Sys2Proof.Machine
end

section
/-! Dispatch of a host cycle (42_dispatch.md R138 to R146): the operation the slot selects, and the terminal and the
composite cycle as their handlers on the sample. -/

namespace Sys2Proof.Machine

/-! ### The interrupt taken -/

/-- An untimed handler is the slot's operation alone (60_exceptions.md R220). -/
theorem takeInterrupt_untimed {s : State} {w : OpWord} (hw : handlerWord s.slot = some w) (ht : s.inp.timing = none) :
    takeInterrupt s = runWord w s := by
  unfold takeInterrupt
  rw [hw]
  cases h : runWord w s <;> simp [overrun_untimed ht, h]

/-- An empty slot runs nothing (60_exceptions.md R227). -/
theorem takeInterrupt_empty {s : State} (h : s.slot = .none) : takeInterrupt s = .fault (.noHandler s) := by
  unfold takeInterrupt
  rw [h]
  rfl

/-- An enabled untimed cycle without contention at its start edge takes the interrupt (42_dispatch.md R146). -/
theorem hostClock_enabled {c : HostCycle} {s : State} (ht : c.timing = none) (hen : s.cycIrqEnable = true)
    (hedge : edgeContention (latchCycle c s) = none) : hostClock c s = takeInterrupt (latchCycle c s) := by
  unfold hostClock
  simp [hedge, hen, missedCycle_untimed (s := latchCycle c s) ht]

/-- Settles O2: the step is the taken interrupt, and the word of the slot decodes to its operation. -/
theorem cycleInterruptRunsSlotHandler : Obligations.CycleInterruptRunsSlotHandler := by
  unfold Obligations.CycleInterruptRunsSlotHandler
  intro s c rest he ht hen hc hedge
  have taken : step s = takeInterrupt (latchCycle c { s with env := rest }) :=
    (step_cons hc he).trans (hostClock_enabled ht hen hedge)
  have runs {w : OpWord} {i : Instr} (hw : handlerWord s.slot = some w) (hd : decode w = .ok i) :
      step s = exec i (latchCycle c { s with env := rest }) :=
    taken.trans ((takeInterrupt_untimed (by exact hw) (by exact ht)).trans (runWord_of_decode_ok hd _))
  refine ⟨fun h hs => ?terminal, fun h hs => ?composite, fun code i hs hd => ?dma, fun hs => ?empty⟩
  case terminal => exact runs (by rw [hs]; rfl) rfl
  case composite => exact runs (by rw [hs]; rfl) rfl
  case dma => exact runs (by rw [hs]; rfl) hd
  case empty => exact taken.trans (takeInterrupt_empty hs)

/-! ### The cycle by its handlers -/

section
variable {rd rd' : Ctrl → Addr → State → Option Byte × State} {wr wr' : Ctrl → Addr → Byte → State → OutV Bool}
  {s : State}

/-- Contention stops a host cycle before anything else (40_bus_primitives.md R115; log entry 27). -/
theorem hostCycle_contended {b : BusName} (h : contended s = some b) :
    hostCycle rd wr s = .fault (.contention b (currentWord s) s) := by
  unfold hostCycle contention
  rw [h]
  rfl

/-- A host cycle faults where its wait for phase-high does. -/
theorem hostCycle_await_fault {f : Fault} (hc : contended s = none) (h : awaitPhaseHigh s = .fault f) :
    hostCycle rd wr s = .fault f := by
  unfold hostCycle contention
  rw [hc, h]
  rfl

/-- The wait for phase-high needs armed references and a classified clock (60_exceptions.md R225; log entry 24). -/
theorem hostCycle_unarmed (hc : contended s = none) (h : refsReady s = false) :
    hostCycle rd wr s = .fault (.unarmed .hostCycle (enterHandler s)) :=
  hostCycle_await_fault hc (waitRef_unarmed (s := enterHandler s) h)

theorem awaitPhaseHigh_ne_refused (r : Refusal) : awaitPhaseHigh s ≠ .refused r := by
  unfold awaitPhaseHigh waitRef
  split
  · cases waitFault (startEdge s) s.ref.high s.inp.latency (enterHandler s) <;> simp
  · simp

/-- A host cycle is determined by what its handlers do with the sample: the read handler in a read cycle, the write handler
in a write cycle. -/
theorem hostCycle_congr
    (hread : (ctrlRead s).rw = true → rd (ctrlRead s) (addrRead s) (sampled s) = rd' (ctrlRead s) (addrRead s) (sampled s))
    (hwrite : (ctrlRead s).rw = false → wr (ctrlRead s) (addrRead s) (dataRead s) (sampled s) =
      wr' (ctrlRead s) (addrRead s) (dataRead s) (sampled s)) : hostCycle rd wr s = hostCycle rd' wr' s := by
  cases hc : contended s with
  | some b => rw [hostCycle_contended hc, hostCycle_contended hc]
  | none =>
    cases hw : awaitPhaseHigh s with
    | next u =>
      rw [hostCycle_sampled hc hw, hostCycle_sampled hc hw]
      cases hrw : (ctrlRead s).rw
      · rw [hwrite hrw]
        rfl
      · rw [hread hrw]
        rfl
    | fault f => rw [hostCycle_await_fault hc hw, hostCycle_await_fault hc hw]
    | refused r => exact absurd hw (awaitPhaseHigh_ne_refused r)

theorem ctrlRead_released (h : s.rwDir = .input) : ctrlRead s = s.inp.ctrl := by
  unfold ctrlRead
  rw [h]

/-- A claimed read is driven until phase-low and released (42_dispatch.md R142). -/
theorem hostCycle_claimed {v : Byte} {u : State} (hs : HostCycleReady s) (hrw : s.inp.ctrl.rw = true)
    (h : rd s.inp.ctrl (addrRead s) (sampled s) = (some v, u))
    (heff : ReadEffect s.inp.ctrl (addrRead s) (sampled s) u (some v)) :
    hostCycle rd wr s = .next (answered (startEdge s) v u) := by
  obtain ⟨href, hdir, -, hc, ht⟩ := hs
  rw [hostCycle_armed href hc ht, ctrlRead_released hdir, if_pos hrw, h]
  obtain ⟨f, irq, k, l, rfl, -⟩ := heff
  exact answerRead_next (.inl hrw) href ht

/-- A declined read drives nothing (42_dispatch.md R142). -/
theorem hostCycle_declined {u : State} (hs : HostCycleReady s) (hrw : s.inp.ctrl.rw = true)
    (h : rd s.inp.ctrl (addrRead s) (sampled s) = (none, u)) : hostCycle rd wr s = .next { u with ret := .none } := by
  obtain ⟨href, hdir, -, hc, ht⟩ := hs
  rw [hostCycle_armed href hc ht, ctrlRead_released hdir, if_pos hrw, h]
  rfl

/-- A write hands the sampled byte to the handler, whose result is ignored (42_dispatch.md R143, R144). -/
theorem hostCycle_written {b : Bool} {u : State} (hs : HostCycleReady s) (hrw : s.inp.ctrl.rw = false)
    (h : wr s.inp.ctrl (addrRead s) (dataRead s) (sampled s) = .next (b, u)) :
    hostCycle rd wr s = .next { u with ret := .none, obs := { u.obs with data := some (dataRead s) } } := by
  obtain ⟨href, hdir, -, hc, ht⟩ := hs
  rw [hostCycle_armed href hc ht, ctrlRead_released hdir, if_neg (by simp [hrw]), h]
  rfl

/-- Where its write handler answers, a host cycle that is ready completes. -/
theorem hostCycle_completes (hs : HostCycleReady s)
    (heff : ∀ c a u, ReadEffect c a u (rd c a u).2 (rd c a u).1)
    (hwr : ∃ r, wr s.inp.ctrl (addrRead s) (dataRead s) (sampled s) = .next r) : ∃ t, hostCycle rd wr s = .next t := by
  cases hrw : s.inp.ctrl.rw with
  | true =>
    have eff := heff s.inp.ctrl (addrRead s) (sampled s)
    match h : rd s.inp.ctrl (addrRead s) (sampled s) with
    | (none, u) => exact ⟨_, hostCycle_declined hs hrw h⟩
    | (some v, u) =>
      rw [h] at eff
      exact ⟨_, hostCycle_claimed hs hrw h eff⟩
  | false =>
    obtain ⟨⟨b, u⟩, h⟩ := hwr
    exact ⟨_, hostCycle_written hs hrw h⟩

end

/-- Settles O24: the three ways a ready cycle goes, at the pair's own handlers. -/
theorem terminalCycleRunsPair : Obligations.TerminalCycleRunsPair := by
  unfold Obligations.TerminalCycleRunsPair
  refine fun s h hs => ⟨fun hrw v u hu => ?claimed, fun hrw u hu => ?declined, fun hrw b u hu => ?written⟩
  case claimed =>
    have eff := pairRead_effect h s.inp.ctrl (addrRead s) (sampled s)
    rw [hu] at eff
    exact hostCycle_claimed hs hrw hu eff
  case declined => exact hostCycle_declined hs hrw hu
  case written => exact hostCycle_written hs hrw hu

/-! ### The composite cycle -/

theorem compositeRead_of_claimed {h : Pair} {c : Ctrl} {a : Addr} {s : State} (hp : (pairRead h c a s).1 ≠ none) :
    compositeRead h c a s = pairRead h c a s := by
  unfold compositeRead
  split
  · rename_i e
    exact e.symm
  · rename_i e
    simp [e] at hp

/-- REU.read sees the state the primary left (42_dispatch.md R145). -/
theorem compositeRead_of_declined {h : Pair} {c : Ctrl} {a : Addr} {s u : State} (hp : pairRead h c a s = (none, u)) :
    compositeRead h c a s = reuRead c a u := by
  unfold compositeRead
  rw [hp]

theorem compositeWrite_of_handled {h : Pair} {c : Ctrl} {a : Addr} {d : Byte} {s u : State}
    (hp : pairWrite h c a d s = .next (true, u)) : compositeWrite h c a d s = pairWrite h c a d s := by
  unfold compositeWrite
  rw [hp]
  rfl

/-- REU.write sees the state the primary left (42_dispatch.md R145). -/
theorem compositeWrite_of_declined {h : Pair} {c : Ctrl} {a : Addr} {d : Byte} {s u : State}
    (hp : pairWrite h c a d s = .next (false, u)) : compositeWrite h c a d s = reuWrite c a d u := by
  unfold compositeWrite
  rw [hp]
  rfl

/-- Read cycles of a composite and a terminal pair agree where their read handlers do. -/
theorem cycleComposite_eq_of_read {s : State} {h p : Pair} (hdir : s.rwDir = .input) (hrw : s.inp.ctrl.rw = true)
    (e : compositeRead h s.inp.ctrl (addrRead s) (sampled s) = pairRead p s.inp.ctrl (addrRead s) (sampled s)) :
    exec (.cycleComposite h) s = exec (.cycleTerminal p) s :=
  hostCycle_congr (fun _ => by rwa [ctrlRead_released hdir]) fun hw => by simp [ctrlRead_released hdir, hrw] at hw

/-- Write cycles of a composite and a terminal pair agree where their write handlers do. -/
theorem cycleComposite_eq_of_write {s : State} {h p : Pair} (hdir : s.rwDir = .input) (hrw : s.inp.ctrl.rw = false)
    (e : compositeWrite h s.inp.ctrl (addrRead s) (dataRead s) (sampled s) =
      pairWrite p s.inp.ctrl (addrRead s) (dataRead s) (sampled s)) :
    exec (.cycleComposite h) s = exec (.cycleTerminal p) s :=
  hostCycle_congr (fun hr => by simp [ctrlRead_released hdir, hrw] at hr) fun _ => by rwa [ctrlRead_released hdir]

/-- Settles O25: the composite handlers are the primary's where it serves the cycle, and REU's on the state it left where
it does not. -/
theorem compositeTriesPrimaryFirst : Obligations.CompositeTriesPrimaryFirst := by
  unfold Obligations.CompositeTriesPrimaryFirst
  refine fun s h hdir => ⟨fun hrw hp => ?claimed, fun hrw hp => ?reuRead, fun hrw u hp => ?handled,
    fun hrw hp => ?reuWrite, fun hs hrw u hp => ⟨fun v w hw => ?reuClaims, fun w hw => ?reuDeclines⟩,
    fun hs hrw u hp => ?written⟩
  case claimed => exact cycleComposite_eq_of_read hdir hrw (compositeRead_of_claimed hp)
  case reuRead => exact cycleComposite_eq_of_read hdir hrw (compositeRead_of_declined hp)
  case handled => exact cycleComposite_eq_of_write hdir hrw (compositeWrite_of_handled hp)
  case reuWrite => exact cycleComposite_eq_of_write hdir hrw (compositeWrite_of_declined hp)
  case reuClaims =>
    have e := (compositeRead_of_declined hp).trans hw
    have eff := compositeRead_effect h s.inp.ctrl (addrRead s) (sampled s)
    rw [e] at eff
    exact hostCycle_claimed hs hrw e eff
  case reuDeclines => exact hostCycle_declined hs hrw ((compositeRead_of_declined hp).trans hw)
  case written =>
    have ⟨_, _, hslot, _⟩ := hs
    obtain ⟨⟨b, w⟩, hw⟩ := compositeWrite_next h s.inp.ctrl (addrRead s) (dataRead s) (s := sampled s) hslot
    exact ⟨b, w, (compositeWrite_of_declined hp).symm.trans hw, hostCycle_written hs hrw hw⟩

/-! ### What a completed cycle leaves -/

/-- What a host cycle, whose R/W line is the host's, leaves: nothing outside the handlers' reach is written, the word is
observed, and the data bus is touched by an answered read only. -/
def CycleLeaves (s t : State) : Prop :=
  HostCycleFrame s t ∧ t.obs.word = some (currentWord s) ∧ t.obs.dmaAddr = none ∧
    (s.inp.ctrl.rw = false → t.obs.data = some (dataRead s)) ∧
    (s.inp.ctrl.rw = true → t.obs.data = none ∧ t.shadow = s.shadow ∧ t.slot = s.slot ∧ t.savedSlot = s.savedSlot ∧
      t.busReq = s.busReq) ∧
    (∀ v, t.obs.driven = some v → s.inp.ctrl.rw = true ∧ t.dataDir = .input ∧ t.dataLatch = v) ∧
    (t.obs.driven = none → t.dataDir = s.dataDir ∧ t.dataLatch = s.dataLatch)

/-- The three ends of a host cycle, each in the state that was sampled. -/
theorem HostEffect.leaves {s t : State} (h : HostEffect s t) (hdir : s.rwDir = .input) : CycleLeaves s t := by
  obtain ⟨-, -, h⟩ := h
  rw [ctrlRead_released hdir] at h
  have frame : HostCycleFrame s { sampled s with ret := .none } := by
    obtain ⟨n, m, e⟩ := sampled_eq s
    simp [HostCycleFrame, e]
  obtain ⟨hrw, v, u, ⟨f, irq, k, l, rfl, -⟩, rfl⟩ | ⟨hrw, u, ⟨f, irq, k, l, rfl, -⟩, rfl⟩ |
    ⟨hrw, u, ⟨f, sh, slot, saved, bus, k, l, rfl, -⟩, rfl⟩ := h
  · refine ⟨frame, rfl, rfl, fun hw => by simp [hrw] at hw, fun _ => ⟨rfl, rfl, rfl, rfl, rfl⟩, ?driven, nofun⟩
    rintro w ⟨⟩
    exact ⟨hrw, rfl, rfl⟩
  · exact ⟨frame, rfl, rfl, fun hw => by simp [hrw] at hw, fun _ => ⟨rfl, rfl, rfl, rfl, rfl⟩, nofun,
      fun _ => ⟨rfl, rfl⟩⟩
  · exact ⟨frame, rfl, rfl, fun _ => rfl, fun hr => by simp [hrw] at hr, nofun, fun _ => ⟨rfl, rfl⟩⟩

/-- A terminal or composite cycle as the two handlers it runs: what they can do, and that a write handler answers outside
a transfer. -/
theorem exec_hostCycle {h : Pair} {i : Instr} (hi : i = .cycleTerminal h ∨ i = .cycleComposite h) : ∃ rd wr,
    (∀ s, exec i s = hostCycle rd wr s) ∧ (∀ c a s, ReadEffect c a s (rd c a s).2 (rd c a s).1) ∧
      (∀ c a d s r, wr c a d s = .next r → WriteEffect s r.2) ∧
      ∀ c a d s, slotIsDma s.slot = false → ∃ r, wr c a d s = .next r := by
  obtain rfl | rfl := hi
  · exact ⟨pairRead h, pairWrite h, fun _ => rfl, pairRead_effect h, fun _ _ _ _ _ => pairWrite_effect,
      fun c a d _ => pairWrite_next h c a d⟩
  · exact ⟨compositeRead h, compositeWrite h, fun _ => rfl, compositeRead_effect h,
      fun _ _ _ _ _ => compositeWrite_effect, fun c a d _ => compositeWrite_next h c a d⟩

/-- Settles O23: contention is found first and the wait for phase-high next; a ready cycle completes, with one of the three
ends of a host cycle. -/
theorem hostCyclesComplete : Obligations.HostCyclesComplete := by
  unfold Obligations.HostCyclesComplete
  intro s h i hi
  obtain ⟨rd, wr, hexec, hrd, hwr, hanswers⟩ := exec_hostCycle hi
  rw [hexec]
  refine ⟨fun b hb => hostCycle_contended hb, fun hc href => hostCycle_unarmed hc (refsReady_eq_false.2 href),
    fun hs => ?ready⟩
  have ⟨_, hdir, hslot, _⟩ := hs
  obtain ⟨t, ht⟩ := hostCycle_completes hs hrd (hanswers _ _ _ (sampled s) hslot)
  exact ⟨t, ht, (hostCycle_effect hrd hwr ht).leaves hdir⟩

/-! ### The REU pair by its cycle words -/

/-- Where a cycle word decodes to an operation, REU.read claims a read cycle with the byte and the state of that operation
(43_reu_registers.md R151). -/
theorem reuRead_of_decode {c : Ctrl} {a : Addr} {i : Instr} (s : State) (h : decodeHostCyc (wordOf a c) = .ok i)
    (hrw : c.rw = true) : ∃ v u, reuRead c a s = (some v, u) ∧ exec i s = .next (u.setRet (.byte v)) := by
  obtain ⟨h17, h16, -, hindex⟩ := wordOf_fields a c
  cases hio : c.io2 with
  | true =>
    rw [decodeHostCyc_io2 (h17.trans hio)] at h
    obtain rfl := Except.ok.inj h
    rw [exec_registerOp, h16, if_pos hrw, hindex]
    exact ⟨_, _, if_pos hio, rfl⟩
  | false =>
    rw [decodeHostCyc_not_io2 (h17.trans hio), if_neg (by simp [h16, hrw])] at h
    cases h

/-- Where a cycle word decodes to an operation, REU.write does in a write cycle what that operation does
(43_reu_registers.md R179). -/
theorem exec_of_decode_write {c : Ctrl} {a : Addr} {i : Instr} (s : State) (h : decodeHostCyc (wordOf a c) = .ok i)
    (hrw : c.rw = false) : exec i s = andThen (reuWrite c a (dataRead s) s) fun r => .next (r.2.setRet .none) := by
  obtain ⟨h17, h16, ha, hindex⟩ := wordOf_fields a c
  unfold reuWrite
  cases hio : c.io2 with
  | true =>
    rw [decodeHostCyc_io2 (h17.trans hio)] at h
    obtain rfl := Except.ok.inj h
    rw [exec_registerOp, h16, if_neg (by simp [hrw]), hindex, if_pos rfl, returnNothing]
    cases writeIndex (indexOf a) (dataRead s) s <;> rfl
  | false =>
    rw [decodeHostCyc_not_io2 (h17.trans hio), ha] at h
    split at h
    case isTrue htrigger =>
      obtain rfl := Except.ok.inj h
      rw [if_neg Bool.false_ne_true, if_pos htrigger.2]
      show andThen (wrFf00 s) _ = _
      cases wrFf00 s <;> rfl
    case isFalse => cases h

/-- Settles O4: the terminal cycle of the REU pair is its handler on the sample, and the handler does what the operation of
the word does. -/
theorem registerCycleRunsDecodedOperation : Obligations.RegisterCycleRunsDecodedOperation := by
  unfold Obligations.RegisterCycleRunsDecodedOperation
  intro s i hs hd
  have ⟨_, hdir, hslot, _⟩ := hs
  obtain ⟨claimed, -, written⟩ := terminalCycleRunsPair s .reu hs
  rw [currentWord, ctrlRead_released hdir] at hd
  refine ⟨fun hrw => ?read, fun hrw => ?write⟩
  case read =>
    obtain ⟨v, u, hread, hexec⟩ := reuRead_of_decode (sampled s) hd hrw
    exact ⟨_, v, hexec, rfl, claimed hrw v u hread⟩
  case write =>
    obtain ⟨⟨b, u⟩, hwrite⟩ := reuWrite_next s.inp.ctrl (addrRead s) (dataRead s) (s := sampled s) hslot
    refine ⟨u.setRet .none, ?_, written hrw b u hwrite⟩
    rw [exec_of_decode_write (sampled s) hd hrw, sampled_dataRead, hwrite, andThen_next]

end Sys2Proof.Machine
end

section
/-! The interface (42_dispatch.md R132 to R135): installing a handler, disabling, and enabling with and without a clock. -/

namespace Sys2Proof.Machine

/-- Settles O26: the interrupt's mask decides. -/
theorem installHandlerWhileMasked : Obligations.InstallHandlerWhileMasked := by
  unfold Obligations.InstallHandlerWhileMasked
  exact fun s h => ⟨fun hm => if_neg (by simp [hm]), fun hen => if_pos hen⟩

/-- Settles O29: the updates of DISABLE_INTERFACE are one. -/
theorem disableInterfaceMasksAndReleases : Obligations.DisableInterface := by
  unfold Obligations.DisableInterface
  refine ⟨rfl, fun s => ?_⟩
  show Host.Outcome.next ((disableInterface s).setRet .none) = _
  rw [disableInterface_eq]
  rfl

/-! ### A classification attempt -/

/-- The loop over listed samples of one profile, which continue its run or begin it, ends with their last where they
complete CLASSIFY_RUN (41_phase_tracker.md R120). -/
theorem classifyLoop_of_run {p last : Profile} {run k : Nat} {xs rest : List (Option Nat)} {s : State}
    (hp : p ≠ .unclassified) (hlast : run = 0 ∨ last = p) (hne : xs ≠ []) (hk : xs.length ≤ k)
    (hlen : run + xs.length = s.cfg.classifyRun) (hs : s.intervals = xs ++ rest)
    (hxs : ∀ c ∈ xs, sampleClass s.cfg c = p) :
    classifyLoop k run last s = (some p, { s with intervals := rest }) := by
  induction xs generalizing run last k s with
  | nil => exact absurd rfl hne
  | cons c xs ih =>
    rw [List.length_cons] at hk hlen
    obtain ⟨k, rfl⟩ : ∃ j, k = j + 1 := Nat.exists_eq_add_one.2 (by omega)
    obtain ⟨hc, hxs⟩ := List.forall_mem_cons.1 hxs
    have hrun : runLength p last run = run + 1 := by
      by_cases h : p = last
      · rw [← h, runLength_same hp]
      · rw [runLength_other hp h, hlast.resolve_right (Ne.symm h)]
    rw [classifyLoop_cons hs, hc, hrun]
    cases xs with
    | nil =>
      rw [List.length_nil] at hlen
      rw [if_pos (by omega)]
      rfl
    | cons d xs =>
      have hlen' : run + 1 + (d :: xs).length = s.cfg.classifyRun := by omega
      rw [if_neg (by rw [List.length_cons] at hlen'; omega)]
      exact ih (.inr rfl) (by simp) (by omega) hlen' rfl hxs

/-- An attempt whose first samples are a run classifies the clock (41_phase_tracker.md R120, R122). -/
theorem waitAttempt_of_run {p : Profile} {xs rest : List (Option Nat)} {s : State} (hp : p ≠ .unclassified)
    (hrun : 1 ≤ s.cfg.classifyRun) (hmax : s.cfg.classifyRun ≤ s.cfg.classifyMax) (hs : s.intervals = xs ++ rest)
    (hlen : xs.length = s.cfg.classifyRun) (hxs : ∀ c ∈ xs, sampleClass s.cfg c = p) :
    waitAttempt s = (some p, { s with profile := p, intervals := rest }) := by
  have hne : xs ≠ [] := List.ne_nil_of_length_pos (by omega)
  unfold waitAttempt classifyClock
  rw [classifyLoop_of_run hp (.inl rfl) hne (by omega) (by omega) hs hxs]
  rfl

/-- An attempt without a sample in tolerance fails, and toggles the led (41_phase_tracker.md R120, R122). -/
theorem waitAttempt_of_unclassified {xs rest : List (Option Nat)} {s : State} (hrun : 1 ≤ s.cfg.classifyRun)
    (hs : s.intervals = xs ++ rest) (hlen : xs.length = s.cfg.classifyMax)
    (hxs : ∀ c ∈ xs, sampleClass s.cfg c = .unclassified) :
    waitAttempt s = (none, { s with profile := .unclassified, led := !s.led, intervals := rest }) := by
  obtain ⟨p, k, ⟨⟨hp, hmin, hk, hat⟩, -⟩, -⟩ | ⟨-, hloop⟩ := classifyLoop_listed hrun hs hlen
  · have hlast := hat (k - 1) (by omega) (by omega)
    rw [List.getElem?_eq_getElem (by omega), Option.map_some, hxs _ (List.getElem_mem _)] at hlast
    exact absurd (Option.some.inj hlast).symm hp
  · unfold waitAttempt classifyClock
    rw [hloop]
    rfl

/-! ### The begin and the end of ENABLE_INTERFACE -/

/-- The pins and lines that the bus discipline names are those of `s`. -/
def SameBus (s t : State) : Prop :=
  t.addrDir = s.addrDir ∧ t.dataDir = s.dataDir ∧ t.rwDir = s.rwDir ∧ t.busReq = s.busReq ∧ t.irqOut = s.irqOut ∧
    t.cartLines = s.cartLines

/-- An active interface is disabled first (42_dispatch.md R134). -/
theorem enableBegin_active {s : State} (h : s.ifState = .active) : enableBegin s = disableInterface s := by
  unfold enableBegin
  rw [h]
  rfl

/-- An idle interface is masked only (42_dispatch.md R134). -/
theorem enableBegin_idle {s : State} (h : s.ifState = .idle) : enableBegin s = { s with cycIrqEnable := false } := by
  unfold enableBegin
  rw [h]

/-- ENABLE_INTERFACE begins Idle and masked, and writes slots and bus besides: an active interface is disabled first, an
idle one keeps them (42_dispatch.md R134). -/
theorem enableBegin_eq (s : State) : ∃ slot saved ad dd rd bus irq lines, enableBegin s = { s with
      ifState := .idle, cycIrqEnable := false, slot := slot, savedSlot := saved
      addrDir := ad, dataDir := dd, rwDir := rd, busReq := bus, irqOut := irq, cartLines := lines } ∧
    (s.ifState = .active → BusUntouched (enableBegin s)) ∧
    (s.ifState = .idle → SameBus s (enableBegin s) ∧ (enableBegin s).slot = s.slot) := by
  cases hi : s.ifState with
  | active =>
    rw [enableBegin_active hi, disableInterface_eq]
    exact ⟨_, _, _, _, _, _, _, _, rfl, fun _ => ⟨rfl, rfl, rfl, rfl, rfl, rfl⟩, nofun⟩
  | idle =>
    rw [enableBegin_idle hi]
    exact ⟨_, _, _, _, _, _, _, _, by rw [← hi], nofun, fun _ => ⟨⟨rfl, rfl, rfl, rfl, rfl, rfl⟩, rfl⟩⟩

/-- A mode without a cartridge variant keeps the code of the one installed last (log entry 10). -/
theorem enterVariant_code {mode : Handler} {s : State} (h : modeVariant mode = none) :
    (enterVariant mode s).cart.code = s.cart.code := by
  unfold enterVariant
  rw [h]

/-- A mode that is no cartridge variant's has none. -/
theorem modeVariant_eq_none {mode : Handler} (h : ∀ n, mode ≠ .terminal (.cart n) ∧ mode ≠ .composite (.cart n)) :
    modeVariant mode = none := by
  cases mode with
  | none | dma => rfl
  | terminal p | composite p =>
    cases p with
    | reu => rfl
    | cart n => simp at h

/-- The end of ENABLE_INTERFACE as one update, with what it writes: the entry values if the mode uses the REU, and the
variant's own state (42_dispatch.md R134, 70_reset_and_hazards.md R244). -/
theorem enableFinish_writes (mode : Handler) (s : State) : ∃ f sh sw rm k i, enableFinish mode s = { s with
      reg := f, shadow := sh, swapLatch := sw, regionModified := rm, cart := k, freeIdx := i
      slot := mode, savedSlot := .none, cycIrqPending := false, cycIrqEnable := true, ifState := .active } ∧
    (usesReu mode = true → f = RegFile.entry ∧ sh = Shadow.entry ∧ rm = false) ∧
    (usesReu mode = false → f = s.reg ∧ sh = s.shadow ∧ sw = s.swapLatch ∧ rm = s.regionModified) ∧
    (∀ b ∈ k.modified, b = false) ∧ (modeVariant mode = none → k.code = s.cart.code) := by
  obtain ⟨k, i, e, hflags⟩ := enterVariant_eq mode (if usesReu mode then reuModeEntry s else s)
  have hcode (h : modeVariant mode = none) : k.code = (if usesReu mode then reuModeEntry s else s).cart.code := by
    rw [← enterVariant_code h, e]
  unfold enableFinish
  rw [e]
  cases hu : usesReu mode with
  | true =>
    rw [hu] at hcode
    exact ⟨_, _, _, _, k, i, rfl, fun _ => ⟨rfl, rfl, rfl⟩, nofun, hflags, hcode⟩
  | false =>
    rw [hu] at hcode
    exact ⟨_, _, _, _, k, i, rfl, nofun, fun _ => ⟨rfl, rfl, rfl, rfl⟩, hflags, hcode⟩

/-! ### ENABLE_INTERFACE -/

theorem exec_enableInterface {mode : Handler} (h : mode.isMode = true) (offset : Int) (s : State) :
    exec (.enableInterface mode offset) s = enableMode mode offset s := by
  cases mode with
  | terminal | composite => rfl
  | none | dma => cases h

/-- With a clock and an offset in range, ENABLE_INTERFACE arms its references and enters the mode (42_dispatch.md R134). -/
theorem enableMode_enters {mode : Handler} {offset : Int} {s u : State} {p : Profile} {b : Base}
    (h : waitAttempt (enableBegin s) = (some p, u)) (hp : u.profile ≠ .unclassified) (hb : baseOf u.cfg p = some b)
    (hlo : -30 ≤ offset) (hhi : offset ≤ 30) : enableMode mode offset s = .next ((enableFinish mode { u with
      ref := ⟨refTime b.dmaHigh offset, refTime b.high offset, refTime b.low offset, offset, true⟩ }).setRet .none) := by
  unfold enableMode
  rw [h]
  simp only []
  rw [armRefs_eq_next.2 ⟨hp, b, hb, hlo, hhi, rfl⟩, andThen_next]

/-- With a clock and an offset out of range, ENABLE_INTERFACE faults as its ARM_REFS does (60_exceptions.md R224). -/
theorem enableMode_badOffset {mode : Handler} {offset : Int} {s u : State} {p : Profile} {b : Base}
    (h : waitAttempt (enableBegin s) = (some p, u)) (hp : u.profile ≠ .unclassified) (hb : baseOf u.cfg p = some b)
    (hrange : offset < -30 ∨ 30 < offset) : enableMode mode offset s = .fault (.badOffset offset u) := by
  unfold enableMode
  rw [h]
  simp only []
  rw [armRefs_badOffset hp hb hrange, andThen_fault]

/-- Without a clock, ENABLE_INTERFACE is the next operation again (log entry 7). -/
theorem enableMode_of_no_clock {mode : Handler} {offset : Int} {s u : State}
    (h : waitAttempt (enableBegin s) = (none, u)) : enableMode mode offset s =
      .next { u with ret := .none, env := .op (encode (.enableInterface mode offset)) :: u.env } := by
  unfold enableMode
  rw [h]

/-- Settles O27: the attempt classifies the clock, and the offset decides between the mode entered and the fault of
ARM_REFS. -/
theorem enableInterfaceActivates : Obligations.EnableInterfaceActivates := by
  unfold Obligations.EnableInterfaceActivates
  intro s mode offset p b xs rest hmode hrun hmax hb hs hlen hxs
  have hp : p ≠ .unclassified := by obtain ⟨rfl, -⟩ | ⟨rfl, -⟩ := hb <;> simp
  obtain ⟨slot, saved, ad, dd, rd, bus, irq, lines, e, active, idle⟩ := enableBegin_eq s
  rw [e] at active idle
  have attempt : waitAttempt (enableBegin s) = _ :=
    (congrArg waitAttempt e).trans (waitAttempt_of_run hp hrun hmax hs hlen hxs)
  rw [exec_enableInterface hmode]
  refine ⟨fun hlo hhi => ?enters, fun hrange => ?faults⟩
  case enters =>
    rw [enableMode_enters attempt hp (baseOf_eq_some.2 hb) hlo hhi]
    obtain ⟨f, sh, sw, rm, k, i, e', entry, kept, flags, code⟩ := enableFinish_writes mode _
    rw [e']
    exact ⟨_, rfl, rfl, rfl, rfl, rfl, rfl, rfl, rfl, rfl, rfl, rfl, rfl, entry, kept, active, fun h => (idle h).1,
      rfl, rfl, rfl, rfl, rfl, rfl, rfl, rfl, rfl, flags, fun h => code (modeVariant_eq_none h)⟩
  case faults =>
    exact ⟨_, enableMode_badOffset attempt hp (baseOf_eq_some.2 hb) hrange, rfl, rfl, rfl, rfl, rfl, rfl, rfl, rfl,
      active⟩

/-- Settles O28: the failed attempt is all that happens after the begin. -/
theorem enableInterfaceWaitsForClock : Obligations.EnableInterfaceWaitsForClock := by
  unfold Obligations.EnableInterfaceWaitsForClock
  intro s mode offset xs rest hmode hrun hs hlen hxs
  obtain ⟨slot, saved, ad, dd, rd, bus, irq, lines, e, active, idle⟩ := enableBegin_eq s
  rw [e] at active idle
  have attempt : waitAttempt (enableBegin s) = _ :=
    (congrArg waitAttempt e).trans (waitAttempt_of_unclassified hrun hs hlen hxs)
  rw [exec_enableInterface hmode, enableMode_of_no_clock attempt]
  refine ⟨_, rfl, rfl, rfl, rfl, rfl, rfl, rfl, rfl, rfl, rfl, rfl, active, fun h => ?kept⟩
  case kept =>
    obtain ⟨⟨had, hdd, hrd, hbus, hirq, hlines⟩, hslot⟩ := idle h
    exact ⟨had, hdd, hrd, hbus, hirq, hlines, hslot⟩

end Sys2Proof.Machine
end

section
/-! The register file as the host sees it (43_reu_registers.md R151 to R180): reads and writes of one register with their
words, the start of a transfer by COMMAND or $FF00, and what the two handlers of the REU pair claim. -/

namespace Sys2Proof.Machine

/-! ### Reads -/

/-- Settles O11: a read word decodes by its index, and each of these operations returns a view on the state as it is. -/
theorem registerReadsReturnViews : Obligations.RegisterReadsReturnViews := by
  unfold Obligations.RegisterReadsReturnViews
  intro s m
  have word := decode_readWord m
  exact ⟨word 1, word 2, word 3, word 4, word 5, word 6, word 7, word 8, word 9, word 10,
    rfl, rfl, rfl, rfl, rfl, rfl, rfl, rfl, rfl, rfl⟩

/-- Settles O12: the bits the read leaves are the complement of STATUS_READ_CLEAR. -/
theorem statusReadClears : Obligations.StatusReadClears := by
  unfold Obligations.StatusReadClears
  exact fun s m => ⟨decode_readWord m 0, rfl⟩

/-- Settles O13: the ranges of unused indices decode with their low bits as the operand; no operation here touches a
register. -/
theorem unusedIndices : Obligations.UnusedIndices := by
  unfold Obligations.UnusedIndices
  intro s m sub sub'
  have word0C0F := fun rw => (decode_registerWord rw m _).trans (congrArg _ (registerOp_unused0C0F rw m sub))
  have word101F := fun rw => (decode_registerWord rw m _).trans (congrArg _ (registerOp_unused101F rw m sub'))
  exact ⟨decode_readWord m 11, word0C0F true, word101F true,
    decode_writeWord m 0, decode_writeWord m 11, word0C0F false, word101F false,
    rfl, rfl, rfl, rfl, rfl, rfl, rfl⟩

/-! ### Writes of one register -/

/-- REG_WRITE to a register without a partner: the byte in live and shadow (R165). -/
theorem regWrite_single {r : Reg} (h : partner r = none) (v : Byte) (s : State) :
    regWrite r v s = { s with reg := s.reg.put r v, shadow := s.shadow.put r v } := by
  cases r <;> cases h <;> rfl

/-- A write operation of a half of a pair, as one update (R165). -/
theorem WritesReg.exec_half {i : Instr} {r j : Reg} (hi : WritesReg i r) (h : partner r = some j) (s : State) :
    exec i s = .next { s with
      reg := (s.reg.put r (dataRead s)).put j (s.shadow.get j)
      shadow := s.shadow.put r (dataRead s)
      ret := .none } := by
  rw [hi, regWrite_half h]
  rfl

/-- A write operation of a register without a partner, as one update (R165). -/
theorem WritesReg.exec_single {i : Instr} {r : Reg} (hi : WritesReg i r) (h : partner r = none) (s : State) :
    exec i s = .next { s with
      reg := s.reg.put r (dataRead s)
      shadow := s.shadow.put r (dataRead s)
      ret := .none } := by
  rw [hi, regWrite_single h]
  rfl

/-- Settles O16: each of the six operations is the REG_WRITE of its half. -/
theorem halfAutoloadWrites : Obligations.HalfAutoloadWrites := by
  unfold Obligations.HalfAutoloadWrites
  intro s m
  have word := decode_writeWord m
  exact ⟨word 2, word 3, word 4, word 5, word 7, word 8,
    WritesReg.exec_half (r := .hostLo) (fun _ => rfl) rfl s, WritesReg.exec_half (r := .hostHi) (fun _ => rfl) rfl s,
    WritesReg.exec_half (r := .perLo) (fun _ => rfl) rfl s, WritesReg.exec_half (r := .perHi) (fun _ => rfl) rfl s,
    WritesReg.exec_half (r := .lenLo) (fun _ => rfl) rfl s, WritesReg.exec_half (r := .lenHi) (fun _ => rfl) rfl s⟩

/-- Settles O17: each of the three operations is the REG_WRITE of a register without a partner. -/
theorem singleRegisterWrites : Obligations.SingleRegisterWrites := by
  unfold Obligations.SingleRegisterWrites
  intro s m
  have word := decode_writeWord m
  exact ⟨word 6, word 9, word 10,
    WritesReg.exec_single (r := .bank) (fun _ => rfl) rfl s, WritesReg.exec_single (r := .imr) (fun _ => rfl) rfl s,
    WritesReg.exec_single (r := .acr) (fun _ => rfl) rfl s⟩

/-! ### The trigger -/

/-- Outside a transfer the trigger installs the initial state of the live TYPE (R176). -/
theorem trigger_idle {s : State} (h : slotIsDma s.slot = false) :
    trigger s = .next { s with
      savedSlot := s.slot
      slot := .dma (initialCode (typeBits s.reg.command))
      busReq := true } :=
  startTransfer_eq_next.2 ⟨h, rfl⟩

/-- In a transfer the trigger faults (60_exceptions.md R229). -/
theorem trigger_running {s : State} (h : slotIsDma s.slot = true) :
    trigger s = .fault (.dmaRetrigger s.reg.command s) := if_pos h

theorem exec_trigger (s : State) : exec .trigger s = returnNothing (trigger s) := rfl

/-- Settles O19: the slot decides. -/
theorem triggerInstallsTransfer : Obligations.TriggerInstallsTransfer := by
  unfold Obligations.TriggerInstallsTransfer
  refine fun s => ⟨rfl, fun idle => ?idle, fun running => ?running⟩
  case idle =>
    rw [exec_trigger, trigger_idle idle]
    rfl
  case running =>
    rw [exec_trigger, trigger_running running]
    rfl

/-! ### COMMAND -/

theorem exec_wrCommand (m : BitVec 11) (s : State) :
    exec (.wrCommand m) s = returnNothing (wrCommand (dataRead s) s) := rfl

/-- A COMMAND byte with EXEC and bit 4 set is stored and starts its transfer (R175). -/
theorem wrCommand_starts {d : Byte} (h7 : d.getLsbD 7 = true) (h4 : d.getLsbD 4 = true) (s : State) :
    wrCommand d s = trigger (regWrite .command d s) :=
  if_pos (by simp [execBit, immediateBit, h7, h4])

/-- Any other COMMAND byte is only stored (R175). -/
theorem wrCommand_stores {d : Byte} (h : ¬ (d.getLsbD 7 = true ∧ d.getLsbD 4 = true)) (s : State) :
    wrCommand d s = .next (regWrite .command d s) :=
  if_neg (by simpa [execBit, immediateBit] using h)

/-- Settles O18: the byte is stored first, and the trigger then sees it as the live COMMAND. -/
theorem commandWrite : Obligations.CommandWrite := by
  unfold Obligations.CommandWrite
  rintro s m d rfl
  rw [exec_wrCommand]
  refine ⟨decode_writeWord m 1, fun h7 h4 idle => ?idle, fun h7 h4 running => ?running, fun h => ?stored⟩
  case idle =>
    rw [wrCommand_starts h7 h4, trigger_idle (s := regWrite .command (dataRead s) s) idle]
    rfl
  case running =>
    rw [wrCommand_starts h7 h4, trigger_running (s := regWrite .command (dataRead s) s) running]
    rfl
  case stored =>
    rw [wrCommand_stores h]
    rfl

/-! ### The $FF00 write -/

/-- ARMED by its two bits (R180). -/
theorem armed_iff {b : Byte} : armed b = true ↔ b.getLsbD 7 = true ∧ b.getLsbD 4 = false := by
  simp [armed, execBit, immediateBit]

theorem armed_eq_false_iff {b : Byte} : armed b = false ↔ b.getLsbD 7 = false ∨ b.getLsbD 4 = true := by
  rw [← Bool.not_eq_true, armed_iff, not_and_or, Bool.not_eq_true, Bool.not_eq_false]

theorem wrFf00_armed {s : State} (h : armed s.reg.command = true) : wrFf00 s = trigger s := if_pos h

theorem wrFf00_unarmed {s : State} (h : armed s.reg.command = false) : wrFf00 s = .next s := by
  unfold wrFf00
  rw [h, if_neg Bool.false_ne_true]

theorem exec_wrFf00 (s : State) : exec .wrFf00 s = returnNothing (wrFf00 s) := rfl

/-- Settles O21: an armed $FF00 write is the trigger, and a word without `io2` decodes only if it is a write. -/
theorem ff00WriteStartsArmedTransfer : Obligations.Ff00WriteStartsArmedTransfer := by
  unfold Obligations.Ff00WriteStartsArmedTransfer
  refine ⟨fun s h7 h4 => ?armed, fun s h => ?unarmed, fun s h7 h4 idle => ?starts, fun w io2 rw => ?read⟩
  case armed => rw [exec_wrFf00, wrFf00_armed (armed_iff.2 ⟨h7, h4⟩), exec_trigger]
  case unarmed =>
    rw [exec_wrFf00, wrFf00_unarmed (armed_eq_false_iff.2 h)]
    rfl
  case starts =>
    rw [exec_wrFf00, wrFf00_armed (armed_iff.2 ⟨h7, h4⟩), trigger_idle idle]
    rfl
  case read => rw [decodeHostCyc_not_io2 io2, if_neg (by simp [rw])]

/-! ### The handlers of the REU pair -/

/-- Settles O14: with `io2` every read word is a register read, which the handler claims. -/
theorem readHandlerClaimsWindow : Obligations.ReadHandlerClaimsWindow := by
  unfold Obligations.ReadHandlerClaimsWindow
  refine fun s c a => ⟨fun io2 => ?claimed, fun io2 => ?declined⟩
  case claimed =>
    obtain ⟨h17, -⟩ := wordOf_fields a { c with rw := true }
    have decoded := decodeHostCyc_io2 (h17.trans io2)
    obtain ⟨v, t, read, exec⟩ := reuRead_of_decode s decoded rfl
    exact ⟨_, v, t, decoded, exec, read⟩
  case declined => exact if_neg (by simp [io2])

/-- With `io2` the write handler is the write of the index, and handled (R179). -/
theorem reuWrite_io2 {c : Ctrl} (h : c.io2 = true) (a : Addr) (d : Byte) (s : State) :
    reuWrite c a d s = andThen (writeIndex (indexOf a) d s) fun t => .next (true, t) := if_pos h

/-- Outside a transfer a register write is handled (R179). -/
theorem reuWrite_io2_handled {c : Ctrl} (h : c.io2 = true) (a : Addr) (d : Byte) {s : State}
    (idle : slotIsDma s.slot = false) : ∃ t, reuWrite c a d s = .next (true, t) := by
  obtain ⟨r, written⟩ := reuWrite_next c a d idle
  have outcome := written
  rw [reuWrite_io2 h] at outcome
  obtain ⟨t, -, handled⟩ := andThen_eq_next.1 outcome
  exact ⟨t, written.trans handled.symm⟩

/-- Without `io2` a write to $FF00 is handled where it finds the trigger armed (R179). -/
theorem reuWrite_ff00 {c : Ctrl} {a : Addr} (h : c.io2 = false) (ha : a = triggerAddr) (d : Byte) (s : State) :
    reuWrite c a d s = andThen (wrFf00 s) fun t => .next (armed s.reg.command, t) := by
  unfold reuWrite
  rw [h, if_neg Bool.false_ne_true, if_pos ha]

/-- Without `io2` a write to any other address is not handled (R179). -/
theorem reuWrite_elsewhere {c : Ctrl} {a : Addr} (h : c.io2 = false) (ha : a ≠ triggerAddr) (d : Byte) (s : State) :
    reuWrite c a d s = .next (false, s) := by
  unfold reuWrite
  rw [h, if_neg Bool.false_ne_true, if_neg ha]

/-- Settles O15: with `io2` every write word is a register write; without it only an armed $FF00 write does something. -/
theorem writeHandlerHandles : Obligations.WriteHandlerHandles := by
  unfold Obligations.WriteHandlerHandles
  refine fun s c a idle => ⟨fun io2 => ?window, fun io2 ha h7 h4 => ?fires, fun io2 other => ?declined⟩
  case window =>
    obtain ⟨h17, -⟩ := wordOf_fields a { c with rw := false }
    have decoded := decodeHostCyc_io2 (h17.trans io2)
    obtain ⟨t, written⟩ := reuWrite_io2_handled (c := { c with rw := false }) io2 a (dataRead s) idle
    refine ⟨_, t, decoded, ?_, written⟩
    rw [exec_of_decode_write s decoded rfl, written]
    rfl
  case fires =>
    have on := armed_iff.2 ⟨h7, h4⟩
    obtain ⟨t, started⟩ : ∃ t, trigger s = .next t := ⟨_, trigger_idle idle⟩
    refine ⟨t, ?_, ?_⟩
    · rw [exec_trigger, started]
      rfl
    · rw [reuWrite_ff00 io2 ha, wrFf00_armed on, started, on, andThen_next]
  case declined =>
    by_cases ha : a = triggerAddr
    case pos =>
      have off : armed s.reg.command = false := by
        rw [← Bool.not_eq_true, armed_iff]
        exact fun on => other ⟨ha, on⟩
      rw [reuWrite_ff00 io2 ha, wrFf00_unarmed off, off, andThen_next]
    case neg => exact reuWrite_elsewhere io2 ha (dataRead s) s

end Sys2Proof.Machine
end

section
/-! One cycle of the DMA sequencer (44_dma_sequencer.md R190 to R206): the bus access of an untimed cycle, the three ways a
cycle ends, and the six states as an access followed by an end. -/

namespace Sys2Proof.Machine

/-! ### The bus access -/

/-- `s` after the wait of an untimed DMA cycle (44_dma_sequencer.md R190). -/
def dmaBegun (s : State) : State := waitUntil (startEdge s + s.ref.dmaHigh) (enterHandler s)

/-- `s` after the read of an untimed DMA cycle, the bus owned (20_memory.md R71). -/
def dmaReadDone (s : State) : State :=
  { waitUntil (startEdge s + s.ref.high)
      { dmaBegun s with addrLatch := s.reg.hostAddr, addrDir := .output, rwLatch := true, rwDir := .output } with
    obs := ⟨none, some s.reg.hostAddr, none, none⟩ }

/-- `s` after the write of the peripheral byte in an untimed DMA cycle, the bus owned (20_memory.md R71). -/
def dmaWriteDone (s : State) : State :=
  { waitUntil (startEdge s + s.ref.low)
      { dmaBegun s with
        addrLatch := s.reg.hostAddr, addrDir := .output, rwLatch := false, rwDir := .output, dataLatch := perRead s } with
    dataDir := .input
    obs := ⟨none, some s.reg.hostAddr, some (perRead s), none⟩ }

/-- A ready DMA cycle whose body begins with a read goes on with the byte on the data bus. -/
theorem dmaCycle_read {s : State} (h : DmaReady s) (f : Byte × State → Out) :
    dmaCycle (fun edge t => andThen (hostBusRead edge t.reg.hostAddr t) f) s =
      andThen (f (dataRead s, dmaReadDone s)) fun u => .next (u.setRet .none) := by
  obtain ⟨hb, ha, ht⟩ := h
  rw [dmaCycle_armed ha ht, hostBusRead_owned (by exact hb) (by exact ha) (by exact ht), andThen_next]
  rfl

/-- A ready DMA cycle whose body begins with a write of the peripheral byte goes on after it. -/
theorem dmaCycle_write {s : State} (h : DmaReady s) (f : State → Out) :
    dmaCycle (fun edge t => andThen (hostBusWrite edge t.reg.hostAddr (perRead t) t) f) s =
      andThen (f (dmaWriteDone s)) fun u => .next (u.setRet .none) := by
  obtain ⟨hb, ha, ht⟩ := h
  rw [dmaCycle_armed ha ht, hostBusWrite_owned (by exact hb) (by exact ha) (by exact ht), andThen_next]
  rfl

/-- What the end of a cycle finds: `u` drives the owned bus, and has the interrupt line, the shadow and the saved handler
of `s`. -/
def Accessed (s u : State) : Prop :=
  u.busReq = true ∧ u.addrDir = .output ∧ u.rwDir = .output ∧ u.irqOut = s.irqOut ∧ u.shadow = s.shadow ∧
    u.savedSlot = s.savedSlot

theorem dmaReadDone_accessed {s : State} (h : DmaReady s) : Accessed s (dmaReadDone s) := ⟨h.1, rfl, rfl, rfl, rfl, rfl⟩

theorem dmaWriteDone_accessed {s : State} (h : DmaReady s) : Accessed s (dmaWriteDone s) :=
  ⟨h.1, rfl, rfl, rfl, rfl, rfl⟩

theorem dmaReadDone_readPins (s : State) : ReadPins s (dmaReadDone s) := ⟨rfl, rfl, rfl, rfl⟩

theorem dmaWriteDone_writePins (s : State) : WritePins (memRead s.mem (perOffset s)) s (dmaWriteDone s) :=
  perRead_eq s ▸ ⟨rfl, rfl, rfl, rfl⟩

/-! ### The address step -/

/-- The register file that ADV_H and ADV_P leave (R191, R192). -/
def steppedRegs (s : State) : RegFile := (advancePer (advanceHost s)).reg

theorem steppedRegs_stepped (s : State) : Stepped s.cfg.reuSize s.reg (steppedRegs s) := advance_stepped s

/-- `u` with the addresses that `s` had, stepped. -/
def steppedFrom (s u : State) : State := { u with reg := steppedRegs s }

/-- The address step depends on registers and parameters only. -/
theorem advance_eq_steppedFrom {s u : State} (hr : u.reg = s.reg) (hc : u.cfg = s.cfg) :
    advancePer (advanceHost u) = steppedFrom s u := by
  unfold steppedFrom steppedRegs
  rw [advancePer_eq, advanceHost_eq, advancePer_eq, advanceHost_eq]
  simp only [hr, hc]

theorem advance_dmaReadDone (s : State) :
    advancePer (advanceHost (dmaReadDone s)) = steppedFrom s (dmaReadDone s) := advance_eq_steppedFrom rfl rfl

theorem advance_dmaWriteDone (s : State) :
    advancePer (advanceHost (dmaWriteDone s)) = steppedFrom s (dmaWriteDone s) := advance_eq_steppedFrom rfl rfl

/-- ADV_H does not touch the peripheral address, so a store may come on either side of it (R195, R198). -/
theorem advance_perWrite (v : Byte) (s : State) :
    advancePer (perWrite v (advanceHost s)) = advancePer (advanceHost (perWrite v s)) := by
  simp only [advanceHost_eq, perWrite_reg]
  unfold perWrite
  cases s.reg.incH <;> rfl

/-- The address step keeps the length (R193). -/
theorem steppedRegs_length (s : State) : (steppedRegs s).length = s.reg.length := by
  obtain ⟨-, -, -, -, hlo, hhi, -⟩ := steppedRegs_stepped s
  unfold RegFile.length
  rw [hlo, hhi]

/-! ### The ends of a cycle -/

/-- `t` differs from `u` only in what the end of a DMA cycle writes, and nothing is returned. -/
def Ended (u t : State) : Prop :=
  ∃ f irq bus ad rd dd slot saved, t = { u with
    reg := f, irqOut := irq, busReq := bus, addrDir := ad, rwDir := rd, dataDir := dd, slot := slot, savedSlot := saved
    ret := .none }

/-- The end of a cycle keeps the pins of a read. -/
theorem Ended.readPins {s u t : State} (h : Ended u t) (hu : ReadPins s u) : ReadPins s t := by
  obtain ⟨f, irq, bus, ad, rd, dd, slot, saved, rfl⟩ := h
  exact hu

/-- The end of a cycle keeps the pins of a write. -/
theorem Ended.writePins {v : Byte} {s u t : State} (h : Ended u t) (hu : WritePins v s u) : WritePins v s t := by
  obtain ⟨f, irq, bus, ad, rd, dd, slot, saved, rfl⟩ := h
  exact hu

/-- The end of a cycle keeps what no DMA cycle writes. -/
theorem Ended.dmaFrame {s u t : State} (h : Ended u t) (hu : DmaFrame s (u.setRet .none)) : DmaFrame s t := by
  obtain ⟨f, irq, bus, ad, rd, dd, slot, saved, rfl⟩ := h
  exact hu

/-- The end of a cycle keeps memory, its flag and the swap latch. -/
theorem Ended.memory {u t : State} (h : Ended u t) :
    t.swapLatch = u.swapLatch ∧ t.mem = u.mem ∧ t.regionModified = u.regionModified := by
  obtain ⟨f, irq, bus, ad, rd, dd, slot, saved, rfl⟩ := h
  exact ⟨rfl, rfl, rfl⟩

/-- Reading leaves what no DMA cycle writes. -/
theorem dmaReadDone_frame (s : State) : DmaFrame s ((dmaReadDone s).setRet .none) :=
  ⟨rfl, rfl, rfl, rfl, rfl, rfl, rfl, rfl, rfl, rfl, rfl, rfl, rfl, rfl, rfl, rfl⟩

/-- Writing leaves what no DMA cycle writes. -/
theorem dmaWriteDone_frame (s : State) : DmaFrame s ((dmaWriteDone s).setRet .none) :=
  ⟨rfl, rfl, rfl, rfl, rfl, rfl, rfl, rfl, rfl, rfl, rfl, rfl, rfl, rfl, rfl, rfl⟩

/-- The length is one less, the addresses stepped (R191 to R193). -/
theorem decLength_steppedFrom (s u : State) :
    decLength (steppedFrom s u) = { u with reg := (steppedRegs s).putLength (s.reg.length - 1) } := by
  rw [← steppedRegs_length]
  rfl

/-- The transfer goes on (R193, R194). -/
theorem continue_ended (code : BitVec 3) {s u : State} (h : Accessed s u) :
    let t := State.setRet { decLength (steppedFrom s u) with slot := .dma code } .none
    Ended u t ∧ Continues code u.dataDir (steppedRegs s) s t := by
  obtain ⟨hb, ha, hr, hi, -, hs⟩ := h
  rw [decLength_steppedFrom]
  exact ⟨⟨_, _, _, _, _, _, _, _, rfl⟩, rfl, rfl, hs, hb, hi, ha, hr, rfl⟩

/-- The transfer is finalized (R204). -/
theorem finalize_ended (eob ve : Bool) (f : RegFile) {s u : State} (h : Accessed s u) :
    let t := (finalize eob ve { u with reg := f }).setRet .none
    Ended u t ∧ Finalized eob ve f s t := by
  obtain ⟨-, -, -, hi, hsh, hs⟩ := h
  refine ⟨?_, ?_⟩
  · rw [finalize_eq]
    exact ⟨_, _, _, _, _, _, _, _, rfl⟩
  · have fin := finalize_finalized eob ve { u with reg := f }
    unfold Finalized at fin ⊢
    rw [← hi, ← hsh, ← hs]
    exact fin

/-- STEP_TAIL finalizes with EOB on the last cycle, and else goes on (R194). -/
theorem stepTail_ended (code : BitVec 3) {s u : State} (h : Accessed s u) :
    let t := (stepTail code (steppedFrom s u)).setRet .none
    Ended u t ∧ (LastCycle s → Finalized true false (steppedRegs s) s t) ∧
      (¬ LastCycle s → Continues code u.dataDir (steppedRegs s) s t) := by
  have last : (steppedRegs s).length = 1 ↔ LastCycle s := by rw [steppedRegs_length]; rfl
  obtain ⟨hl, e⟩ | ⟨hl, e⟩ := stepTail_cases code (steppedFrom s u)
  · obtain ⟨ended, fin⟩ := finalize_ended true false (steppedRegs s) h
    rw [e]
    exact ⟨ended, fun _ => fin, fun n => absurd (last.1 hl) n⟩
  · obtain ⟨ended, cont⟩ := continue_ended code h
    rw [e]
    exact ⟨ended, fun l => absurd (last.2 l) hl, fun _ => cont⟩

/-! ### The six states -/

/-- A STASH cycle: the host byte read is stored, and STEP_TAIL (R195). -/
theorem exec_dmaStash {s : State} (h : DmaReady s) : exec .dmaStash s =
    .next ((stepTail stashCode (steppedFrom s (perWrite (dataRead s) (dmaReadDone s)))).setRet .none) := by
  refine (dmaCycle_read h _).trans ?_
  rw [advance_perWrite, advance_eq_steppedFrom (s := s) (u := perWrite _ (dmaReadDone s)) rfl rfl]
  rfl

/-- A FETCH cycle: the peripheral byte written, and STEP_TAIL (R196). -/
theorem exec_dmaFetch {s : State} (h : DmaReady s) : exec .dmaFetch s =
    .next ((stepTail fetchCode (steppedFrom s (dmaWriteDone s))).setRet .none) := by
  refine (dmaCycle_write h _).trans ?_
  rw [advance_dmaWriteDone]
  rfl

/-- A SWAP1 cycle: the host byte read is latched (R197). -/
theorem exec_dmaSwap1 {s : State} (h : DmaReady s) : exec .dmaSwap1 s =
    .next (State.setRet { dmaReadDone s with swapLatch := dataRead s, slot := .dma swap2Code } .none) :=
  dmaCycle_read h _

/-- A SWAP2 cycle: the peripheral byte written, the latched byte stored, and STEP_TAIL (R198). -/
theorem exec_dmaSwap2 {s : State} (h : DmaReady s) : exec .dmaSwap2 s =
    .next ((stepTail swap1Code (steppedFrom s (perWrite s.swapLatch (dmaWriteDone s)))).setRet .none) := by
  refine (dmaCycle_write h _).trans ?_
  rw [advance_eq_steppedFrom (s := s) (u := perWrite _ (dmaWriteDone s)) rfl rfl]
  rfl

/-- A VERIFY cycle: a matching byte steps on, another finalizes or goes to VERIFY_ERR (R199). -/
theorem exec_dmaVerify {s : State} (h : DmaReady s) : exec .dmaVerify s = .next (State.setRet
    (if dataRead s = memRead s.mem (perOffset s) then stepTail verifyCode (steppedFrom s (dmaReadDone s))
    else if lastByte s.reg.length then finalize true true (steppedFrom s (dmaReadDone s))
    else { decLength (steppedFrom s (dmaReadDone s)) with slot := .dma verifyErrCode }) .none) := by
  refine (dmaCycle_read h _).trans ?_
  rw [advance_dmaReadDone, perRead_eq, ← steppedRegs_length s]
  show andThen (if dataRead s = memRead s.mem (perOffset s) then _ else
    if lastByte (steppedRegs s).length then _ else _) _ = _
  split
  · rfl
  · split <;> rfl

/-- A VERIFY_ERR cycle: the bytes are compared again, and FINALIZE runs (R200). -/
theorem exec_dmaVerifyErr {s : State} (h : DmaReady s) : exec .dmaVerifyErr s = .next (State.setRet
    (if lastByte s.reg.length then
      finalize (decide (dataRead s = memRead s.mem (perOffset s))) true (steppedFrom s (dmaReadDone s))
    else finalize false true (decLength (steppedFrom s (dmaReadDone s)))) .none) := by
  refine (dmaCycle_read h _).trans ?_
  rw [advance_dmaReadDone, perRead_eq, ← steppedRegs_length s]
  show andThen (if lastByte (steppedRegs s).length then _ else _) _ = _
  split <;> rfl

end Sys2Proof.Machine
end

section
/-! The DMA sequencer, state by state (44_dma_sequencer.md R195 to R206): what an untimed cycle with the bus owned leaves, what
FINALIZE leaves, and the faults of a cycle that lacks the references or the bus. -/

namespace Sys2Proof.Machine

/-! ### Cycles that complete -/

/-- A store at the masked peripheral address is read back, and every other byte is as before (20_memory.md R72). -/
theorem Ended.stored {v : Byte} {s u t : State} (h : Ended (perWrite v u) t) (hr : u.reg = s.reg) (hc : u.cfg = s.cfg)
    (hm : u.mem = s.mem) :
    memRead t.mem (perOffset s) = v ∧ ∀ a, a ≠ perOffset s → memRead t.mem a = memRead s.mem a := by
  obtain ⟨-, mem, -⟩ := h.memory
  have written : t.mem = memWrite s.mem (perOffset s) v := by
    rw [mem, ← perOffset_eq, ← hr, ← hc, ← hm]
    rfl
  rw [written]
  exact ⟨memRead_memWrite_same .., fun a ha => memRead_memWrite_other s.mem v ha⟩

/-- Settles O43: the read, the store and STEP_TAIL. -/
theorem stashCycleStoresAndSteps : Obligations.StashCycle := by
  unfold Obligations.StashCycle
  refine ⟨rfl, fun s h => ?_⟩
  have access : Accessed s (perWrite (dataRead s) (dmaReadDone s)) := dmaReadDone_accessed h
  obtain ⟨ended, last, more⟩ := stepTail_ended stashCode access
  obtain ⟨same, others⟩ := ended.stored (s := s) rfl rfl rfl
  obtain ⟨swap, -, region⟩ := ended.memory
  exact ⟨_, _, exec_dmaStash h, steppedRegs_stepped s, ended.readPins (dmaReadDone_readPins s),
    ended.dmaFrame (dmaReadDone_frame s), swap, same, others, region, last, more⟩

/-- Settles O44: the write and STEP_TAIL. -/
theorem fetchCycleWritesAndSteps : Obligations.FetchCycle := by
  unfold Obligations.FetchCycle
  refine ⟨rfl, fun s h => ?_⟩
  obtain ⟨ended, last, more⟩ := stepTail_ended fetchCode (dmaWriteDone_accessed h)
  obtain ⟨swap, mem, region⟩ := ended.memory
  exact ⟨_, _, exec_dmaFetch h, steppedRegs_stepped s, ended.writePins (dmaWriteDone_writePins s),
    ended.dmaFrame (dmaWriteDone_frame s), swap, mem, region, last, more⟩

/-- Settles O45: the read, its byte latched. -/
theorem swapFirstHalf : Obligations.SwapFirstHalf := by
  unfold Obligations.SwapFirstHalf
  refine ⟨rfl, fun s h => ?_⟩
  exact ⟨_, exec_dmaSwap1 h, dmaReadDone_readPins s, dmaReadDone_frame s, rfl, rfl, rfl, rfl, rfl, rfl, rfl, rfl, rfl, rfl,
    rfl⟩

/-- Settles O46: the write, the store of the latched byte, and STEP_TAIL. -/
theorem swapSecondHalf : Obligations.SwapSecondHalf := by
  unfold Obligations.SwapSecondHalf
  refine ⟨rfl, fun s h => ?_⟩
  have access : Accessed s (perWrite s.swapLatch (dmaWriteDone s)) := dmaWriteDone_accessed h
  obtain ⟨ended, last, more⟩ := stepTail_ended swap1Code access
  obtain ⟨same, others⟩ := ended.stored (s := s) rfl rfl rfl
  obtain ⟨swap, -, region⟩ := ended.memory
  exact ⟨_, _, exec_dmaSwap2 h, steppedRegs_stepped s, ended.writePins (dmaWriteDone_writePins s),
    ended.dmaFrame (dmaWriteDone_frame s), swap, same, others, region, last, more⟩

/-- LAST of R193 is a remaining length of 1. -/
theorem lastByte_iff (s : State) : lastByte s.reg.length = true ↔ LastCycle s := beq_iff_eq

/-- A cycle that reads and stores nothing keeps memory, its flag and the swap latch, and what no DMA cycle writes. -/
theorem Ended.read {s t : State} (h : Ended (dmaReadDone s) t) : ReadPins s t ∧ DmaFrame s t ∧
    t.swapLatch = s.swapLatch ∧ t.mem = s.mem ∧ t.regionModified = s.regionModified :=
  ⟨h.readPins (dmaReadDone_readPins s), h.dmaFrame (dmaReadDone_frame s), h.memory⟩

/-- Settles O47: by whether the bytes match and, of a mismatch, whether it is on the last byte. -/
theorem verifyCycleCompares : Obligations.VerifyCycle := by
  unfold Obligations.VerifyCycle
  refine ⟨rfl, fun s h => ?_⟩
  have access := dmaReadDone_accessed h
  have run := exec_dmaVerify h
  by_cases same : dataRead s = memRead s.mem (perOffset s)
  case pos =>
    obtain ⟨ended, last, more⟩ := stepTail_ended verifyCode access
    obtain ⟨pins, frame, swap, mem, region⟩ := ended.read
    rw [if_pos same] at run
    exact ⟨_, _, run, steppedRegs_stepped s, pins, frame, swap, mem, region, fun _ => last, fun _ => more,
      fun differ => absurd same differ, fun differ => absurd same differ⟩
  case neg =>
    rw [if_neg same] at run
    by_cases last : LastCycle s
    case pos =>
      obtain ⟨ended, finalized⟩ := finalize_ended true true (steppedRegs s) access
      obtain ⟨pins, frame, swap, mem, region⟩ := ended.read
      rw [if_pos ((lastByte_iff s).2 last)] at run
      exact ⟨_, _, run, steppedRegs_stepped s, pins, frame, swap, mem, region, fun e => absurd e same,
        fun e => absurd e same, fun _ _ => finalized, fun _ more => absurd last more⟩
    case neg =>
      obtain ⟨ended, continues⟩ := continue_ended verifyErrCode access
      obtain ⟨pins, frame, swap, mem, region⟩ := ended.read
      rw [if_neg (mt (lastByte_iff s).1 last)] at run
      exact ⟨_, _, run, steppedRegs_stepped s, pins, frame, swap, mem, region, fun e => absurd e same,
        fun e => absurd e same, fun _ l => absurd l last, fun _ _ => continues⟩

/-- Settles O48: by whether the byte is the last; of a last byte FINALIZE reports end of block as the comparison says. -/
theorem verifyErrorCycle : Obligations.VerifyErrorCycle := by
  unfold Obligations.VerifyErrorCycle
  refine ⟨rfl, fun s h => ?_⟩
  have access := dmaReadDone_accessed h
  have run := exec_dmaVerifyErr h
  by_cases last : LastCycle s
  case pos =>
    obtain ⟨ended, finalized⟩ :=
      finalize_ended (decide (dataRead s = memRead s.mem (perOffset s))) true (steppedRegs s) access
    obtain ⟨pins, frame, swap, mem, region⟩ := ended.read
    rw [if_pos ((lastByte_iff s).2 last)] at run
    exact ⟨_, _, run, steppedRegs_stepped s, pins, frame, swap, mem, region,
      fun _ same => decide_eq_true same ▸ finalized, fun _ differ => decide_eq_false differ ▸ finalized,
      fun more => absurd last more⟩
  case neg =>
    obtain ⟨ended, finalized⟩ :=
      finalize_ended false true ((steppedRegs s).putLength (s.reg.length - 1)) access
    obtain ⟨pins, frame, swap, mem, region⟩ := ended.read
    rw [if_neg (mt (lastByte_iff s).1 last), decLength_steppedFrom] at run
    exact ⟨_, _, run, steppedRegs_stepped s, pins, frame, swap, mem, region, fun l => absurd l last,
      fun l => absurd l last, fun _ => finalized⟩

/-- Settles O49: FINALIZE as one update, and the register file it leaves. -/
theorem finalizeReportsAndRestores : Obligations.FinalizeReportsAndRestores := by
  unfold Obligations.FinalizeReportsAndRestores
  refine fun s eob ve => ⟨rfl, (finalize eob ve s).setRet .none, rfl, finalize_finalized eob ve s, ?_⟩
  rw [finalize_eq]
  rfl

/-! ### Cycles that fault or are refused -/

/-- An operation faults where its first part does. -/
theorem andThen_of_fault {α β : Type} {o : Host.Outcome α Fault Refusal} {r : Fault} (h : o = .fault r)
    (f : α → Host.Outcome β Fault Refusal) : andThen o f = .fault r := by
  rw [h, andThen_fault]

/-- A DMA read without bus ownership faults with the address latched (R190, 60_exceptions.md R222). -/
theorem hostBusRead_unowned {edge : Time} {a : Addr} {s : State} (h : s.busReq = false) :
    hostBusRead edge a s = .fault (.contention .address (currentWord (addrDrive a s)) (addrDrive a s)) :=
  andThen_of_fault (addrDirOut_unowned (s := addrDrive a s) h) _

/-- A DMA write without bus ownership faults with the address latched (R190, 60_exceptions.md R222). -/
theorem hostBusWrite_unowned {edge : Time} {a : Addr} {v : Byte} {s : State} (h : s.busReq = false) :
    hostBusWrite edge a v s = .fault (.contention .address (currentWord (addrDrive a s)) (addrDrive a s)) :=
  andThen_of_fault (addrDirOut_unowned (s := addrDrive a s) h) _

/-- The wait of a DMA cycle needs armed references and a classified clock (60_exceptions.md R225; log entry 24). -/
theorem dmaCycle_unarmed {body : Time → State → Out} {s : State} (h : refsReady s = false) :
    dmaCycle body s = .fault (.unarmed .dmaCycle (enterHandler s)) :=
  andThen_of_fault (waitRef_unarmed (s := enterHandler s) h) _

/-- The own cycle of a sequencer state begins with a bus access, which needs bus ownership (R190). -/
def NeedsBus (body : Time → State → Out) : Prop :=
  ∀ edge s, s.busReq = false → body edge s =
    .fault (.contention .address (currentWord (addrDrive s.reg.hostAddr s)) (addrDrive s.reg.hostAddr s))

/-- Each of the six states is a DMA cycle that needs bus ownership (R190). -/
theorem exec_dmaState_needsBus {i : Instr}
    (h : i ∈ [Instr.dmaStash, .dmaFetch, .dmaSwap1, .dmaSwap2, .dmaVerify, .dmaVerifyErr]) :
    ∃ body, exec i = dmaCycle body ∧ NeedsBus body := by
  simp only [List.mem_cons, List.not_mem_nil, or_false] at h
  obtain rfl | rfl | rfl | rfl | rfl | rfl := h
  · exact ⟨stashCycle, rfl, fun _ _ h => andThen_of_fault (hostBusRead_unowned h) _⟩
  · exact ⟨fetchCycle, rfl, fun _ _ h => andThen_of_fault (hostBusWrite_unowned h) _⟩
  · exact ⟨swap1Cycle, rfl, fun _ _ h => andThen_of_fault (hostBusRead_unowned h) _⟩
  · exact ⟨swap2Cycle, rfl, fun _ _ h => andThen_of_fault (hostBusWrite_unowned h) _⟩
  · exact ⟨verifyCycle, rfl, fun _ _ h => andThen_of_fault (hostBusRead_unowned h) _⟩
  · exact ⟨verifyErrCycle, rfl, fun _ _ h => andThen_of_fault (hostBusRead_unowned h) _⟩

/-- A released address bus shows the host's address, whatever the core's latch holds (40_bus_primitives.md R99). -/
theorem currentWord_of_released {s u : State} (hs : s.addrDir = .input) (hu : u.addrDir = .input) (hi : u.inp = s.inp)
    (hc : ctrlRead u = ctrlRead s) : currentWord u = currentWord s := by
  unfold currentWord
  rw [addrRead_eq_ite, addrRead_eq_ite, if_pos hs, if_pos hu, hi, hc]

/-- Settles O50: the wait needs the references, and the access after it the bus. -/
theorem dmaNeedsReferencesAndOwnership : Obligations.DmaNeedsReferencesAndOwnership := by
  unfold Obligations.DmaNeedsReferencesAndOwnership
  intro s i hi u
  obtain ⟨body, run, needsBus⟩ := exec_dmaState_needsBus hi
  rw [run]
  have unowned (hr : refsReady s = true) (ht : s.inp.timing = none) (hb : s.busReq = false) :
      dmaCycle body s = .fault (.contention .address (currentWord u) u) := by
    rw [dmaCycle_armed hr ht]
    exact andThen_of_fault (needsBus (startEdge s) (dmaBegun s) hb) _
  refine ⟨fun h => dmaCycle_unarmed (refsReady_eq_false.2 h), unowned, fun hr ht hb ha => ?_⟩
  rw [unowned hr ht hb, currentWord_of_released (s := s) (u := u) ha ha rfl rfl]

/-- A reserved code with ready references is refused after the wait (R190; log entry 26). -/
theorem reservedCycle_refused (code : BitVec 3) {s : State} (hr : refsReady s = true) (ht : s.inp.timing = none) :
    dmaCycle (reservedCycle code) s = .refused (.reservedState code) := by
  rw [dmaCycle_armed hr ht]
  rfl

/-- A number outside the ranges of R91 is not assigned. -/
theorem not_mem_assignedNumbers : ∀ n : Byte, ¬ (0x01 ≤ n ∧ n ≤ 0x10) → ¬ (0x20 ≤ n ∧ n ≤ 0x27) →
    ¬ (0x40 ≤ n ∧ n ≤ 0x44) → n ≠ 0x60 → n ≠ 0x61 → n ∉ assignedNumbers := by
  decide

/-- Settles O10: an unassigned number decodes to none; the slot's reserved code runs as a DMA cycle that is refused after its
wait; the modes that are none by the meaning of ENABLE_INTERFACE. -/
theorem unadmittedFormsRefused : Obligations.UnadmittedFormsRefused := by
  unfold Obligations.UnadmittedFormsRefused
  refine ⟨?number, ?reserved, fun _ _ => rfl, fun _ _ _ => rfl⟩
  case number =>
    intro s n arg rest hc he h1 h2 h4 h60 h61
    have unassigned : decode (.op8 n arg) = .error (.unassigned n) :=
      decodeOp8_unassigned arg n (not_mem_assignedNumbers n h1 h2 h4 h60 h61)
    rw [step_op hc he]
    unfold runWord
    rw [unassigned]
  case reserved =>
    intro s c code rest he ht hen hs hcode hc hedge
    have taken : step s = takeInterrupt (latchCycle c { s with env := rest }) :=
      (step_cons hc he).trans (hostClock_enabled ht hen hedge)
    have runs := takeInterrupt_untimed (s := latchCycle c { s with env := rest }) (congrArg handlerWord hs) ht
    have reserved : runWord (.dmaState code) = dmaCycle (reservedCycle code) := by
      obtain rfl | rfl := hcode <;> rfl
    rw [taken, runs, reserved]
    exact ⟨fun hr => reservedCycle_refused code hr ht, fun hr => dmaCycle_unarmed hr⟩

end Sys2Proof.Machine
end

section
/-! Transfers of several bytes (44_dma_sequencer.md R195, R201, R207, R210): the fields a stepped byte leaves, a mismatch on the
last byte but one, and a block moved by STASH. -/

namespace Sys2Proof.Machine

/-! ### From one byte to the next -/

/-- A DMA cycle keeps the references, and the clock classified (41_phase_tracker.md R131). -/
theorem DmaFrame.refsReady_eq {s t : State} (h : DmaFrame s t) : refsReady t = refsReady s := by
  obtain ⟨-, profile, ref, -⟩ := h
  unfold refsReady
  rw [profile, ref]

/-- The length after a cycle that goes on (R193). -/
theorem Continues.length_eq {code : BitVec 3} {dir : Dir} {g : RegFile} {s t : State} (h : Continues code dir g s t) :
    t.reg.length = s.reg.length - 1 := by
  obtain ⟨hreg, -⟩ := h
  rw [hreg]
  exact append_halves _

/-- With `n` bytes to come after it, a cycle that goes on leaves the length `n` (R193). -/
theorem Continues.length_toNat {code : BitVec 3} {dir : Dir} {g : RegFile} {s t : State} (h : Continues code dir g s t)
    {n : Nat} (len : s.reg.length.toNat = n + 1) : t.reg.length.toNat = n := by
  have pos : 1 ≤ s.reg.length := by
    rw [BitVec.le_def, len]
    exact Nat.succ_le_succ (Nat.zero_le _)
  rw [h.length_eq, BitVec.toNat_sub_of_le pos, len]
  rfl

/-- The peripheral address after a cycle that goes on, with ADV_P enabled (R192). -/
theorem Continues.perOffset_eq {code : BitVec 3} {dir : Dir} {g : RegFile} {s t : State} (h : Continues code dir g s t)
    (frame : DmaFrame s t) (stepped : Stepped s.cfg.reuSize s.reg g) (inc : s.reg.acr.getLsbD 6 = false) :
    perOffset t = (perOffset s + 1) % s.cfg.reuSize.bytes := by
  obtain ⟨hreg, -⟩ := h
  obtain ⟨hcfg, -⟩ := frame
  obtain ⟨-, hper, -⟩ := stepped
  rw [inc, if_neg Bool.false_ne_true] at hper
  unfold perOffset
  rw [hreg, hcfg, hper, Nat.mod_mod]

/-- The host address after a cycle that goes on, with ADV_H enabled (R191). -/
theorem Continues.hostAddr_eq {code : BitVec 3} {dir : Dir} {g : RegFile} {s t : State} (h : Continues code dir g s t)
    (stepped : Stepped s.cfg.reuSize s.reg g) (inc : s.reg.acr.getLsbD 7 = false) :
    t.reg.hostAddr = s.reg.hostAddr + 1 := by
  obtain ⟨hreg, -⟩ := h
  obtain ⟨hhost, -⟩ := stepped
  rw [inc, if_neg Bool.false_ne_true] at hhost
  rw [hreg]
  exact hhost

/-- STATUS, COMMAND and ACR after a cycle that goes on (R194). -/
theorem Continues.control {code : BitVec 3} {dir : Dir} {g : RegFile} {s t : State} (h : Continues code dir g s t)
    (stepped : Stepped s.cfg.reuSize s.reg g) :
    t.reg.status = s.reg.status ∧ t.reg.command = s.reg.command ∧ t.reg.acr = s.reg.acr := by
  obtain ⟨hreg, -⟩ := h
  obtain ⟨-, -, hst, hcmd, -, -, -, hacr⟩ := stepped
  rw [hreg]
  exact ⟨hst, hcmd, hacr⟩

/-- A released data bus shows the host's byte (40_bus_primitives.md R103). -/
theorem dataRead_of_released {s : State} (h : s.dataDir = .input) : dataRead s = s.inp.data := by
  rw [dataRead_eq_ite, if_pos h]

/-! ### FINALIZE -/

/-- EOB and VE after FINALIZE: reported, or set before (R204). -/
theorem Finalized.flags {eob ve : Bool} {f : RegFile} {s t : State} (h : Finalized eob ve f s t) :
    t.reg.status.getLsbD 6 = (f.status.getLsbD 6 || eob) ∧ t.reg.status.getLsbD 5 = (f.status.getLsbD 5 || ve) := by
  obtain ⟨-, hst, -⟩ := h
  obtain e | e := (ite_eq_or_eq _ _ _).imp hst.trans hst.trans
  · rw [e]
    cases eob <;> cases ve <;> simp
  · rw [e]
    cases eob <;> cases ve <;> simp

/-- Without autoload the length after FINALIZE is that of the last cycle (R203, R204). -/
theorem Finalized.length_eq {eob ve : Bool} {f : RegFile} {s t : State} (h : Finalized eob ve f s t)
    (auto : f.command.getLsbD 5 = false) : t.reg.length = f.length := by
  obtain ⟨-, -, -, hregs, -⟩ := h
  rw [auto, if_neg Bool.false_ne_true] at hregs
  obtain ⟨-, -, -, -, -, hlo, hhi⟩ := hregs
  unfold RegFile.length
  rw [hlo, hhi]

/-- FINALIZE releases the bus and restores the saved handler (R205). -/
theorem Finalized.released {eob ve : Bool} {f : RegFile} {s t : State} (h : Finalized eob ve f s t) :
    t.busReq = false ∧ t.slot = s.savedSlot := by
  obtain ⟨-, -, -, -, -, -, hb, -, -, -, hs, -⟩ := h
  exact ⟨hb, hs⟩

/-! ### A mismatch on the last byte but one -/

/-- A VERIFY_ERR cycle on the last byte finalizes with VE, and with EOB as the comparison says (R200). -/
theorem verifyErr_last {s : State} (h : DmaReady s) (last : LastCycle s) : ∃ t g, exec .dmaVerifyErr s = .next t ∧
    Stepped s.cfg.reuSize s.reg g ∧
    Finalized (decide (dataRead s = memRead s.mem (perOffset s))) true g s t := by
  obtain ⟨t, g, run, stepped, -, -, -, -, -, same, differ, -⟩ := verifyErrorCycle.2 s h
  refine ⟨t, g, run, stepped, ?_⟩
  by_cases hm : dataRead s = memRead s.mem (perOffset s)
  case pos => exact decide_eq_true hm ▸ same last hm
  case neg => exact decide_eq_false hm ▸ differ last hm

/-- Settles O52: the VERIFY cycle goes on to VERIFY_ERR on the last byte, which FINALIZE reports. -/
theorem verifyPenultimateMismatch : Obligations.VerifyPenultimateMismatch := by
  unfold Obligations.VerifyPenultimateMismatch
  intro s next ready untimed hd two noAuto clear inc differ
  obtain ⟨t, g, run, stepped, -, frame, -, mem, -, -, -, -, goesOn⟩ := verifyCycleCompares.2 s ready
  have more : ¬ LastCycle s := fun last => by
    rw [LastCycle, two] at last
    contradiction
  have cont := goesOn (by rwa [dataRead_of_released hd]) more
  obtain ⟨status, command, -⟩ := cont.control stepped
  obtain ⟨-, refs, -⟩ := ready
  have ⟨_, slot, saved, bus, _, _, _, dir⟩ := cont
  have last : t.reg.length = 1 := by
    rw [cont.length_eq, RegFile.length, two]
    rfl
  obtain ⟨u, g', run', ⟨-, -, status', command', hlo, hhi, -⟩, fin⟩ :=
    verifyErr_last (s := { t with inp := next }) ⟨bus, frame.refsReady_eq.trans refs, untimed⟩ last
  obtain ⟨eob, ve⟩ := fin.flags
  have bits : s.reg.status.getLsbD 6 = false := by
    have := congrArg (·.getLsbD 6) clear
    simpa [BitVec.getLsbD_and] using this
  refine ⟨t, u, run, slot, status, run', fin.released.2.trans saved, by rw [ve, Bool.or_true], ?length, ?endOfBlock⟩
  case length =>
    refine (fin.length_eq ((congrArg (·.getLsbD 5) (command'.trans command)).trans noAuto)).trans ?_
    rw [RegFile.length, hlo, hhi]
    exact last
  case endOfBlock =>
    have offset : perOffset { t with inp := next } = _ := cont.perOffset_eq frame stepped inc
    rw [eob, (congrArg (·.getLsbD 6) (status'.trans status)).trans bits, Bool.false_or, decide_eq_true_iff,
      dataRead_of_released (s := { t with inp := next }) (dir.trans hd), offset, mem]

/-! ### A block moved by STASH -/

/-- The bytes of the cycles `cs` lie in the memory `m'` from the address `p` on, modulo `size`; every other byte is that of
`m`. -/
def BlockMoved (size p : Nat) (cs : List HostCycle) (m m' : Mem) : Prop :=
  (∀ k (hk : k < cs.length), memRead m' ((p + k) % size) = cs[k].data) ∧
    ∀ a, (∀ k, k < cs.length → a ≠ (p + k) % size) → memRead m' a = memRead m a

theorem blockMoved_nil (size p : Nat) (m : Mem) : BlockMoved size p [] m m :=
  ⟨fun _ hk => absurd hk (Nat.not_lt_zero _), fun _ _ => rfl⟩

/-- Fewer than `size` addresses on, an address does not come back. -/
theorem ne_add_mod_of_lt {size p k : Nat} (hp : p < size) (h0 : 0 < k) (hk : k < size) : p ≠ (p + k) % size := by
  intro e
  have wraps : p + 0 ≡ p + k [MOD size] := (Nat.mod_eq_of_lt hp).trans e
  have zero := Nat.ModEq.add_left_cancel' p wraps
  rw [Nat.ModEq, Nat.zero_mod, Nat.mod_eq_of_lt hk] at zero
  omega

/-- A byte stored at `p`, and then a block moved after it, is one block: less than the whole memory long, it does not come
back to `p`. -/
theorem BlockMoved.cons {size p : Nat} {c : HostCycle} {cs : List HostCycle} {m m' m'' : Mem} (hp : p < size)
    (hlen : cs.length < size) (same : memRead m' p = c.data) (others : ∀ a, a ≠ p → memRead m' a = memRead m a)
    (h : BlockMoved size ((p + 1) % size) cs m' m'') : BlockMoved size p (c :: cs) m m'' := by
  obtain ⟨moved, kept⟩ := h
  have next (k : Nat) : ((p + 1) % size + k) % size = (p + (k + 1)) % size := by
    rw [Nat.mod_add_mod, Nat.add_assoc, Nat.add_comm 1 k]
  simp only [next] at moved kept
  refine ⟨fun k hk => ?_, fun a ha => ?_⟩
  · cases k with
    | zero =>
      rw [Nat.add_zero, Nat.mod_eq_of_lt hp, kept p fun k hk => ne_add_mod_of_lt hp k.succ_pos (by omega)]
      exact same
    | succ k => exact moved k (Nat.lt_of_succ_lt_succ hk)
  · have first : a ≠ p := by
      have := ha 0 (Nat.succ_pos _)
      rwa [Nat.add_zero, Nat.mod_eq_of_lt hp] at this
    rw [kept a fun k hk => ha (k + 1) (Nat.succ_lt_succ hk), others a first]

/-- A STASH of one byte for each of the untimed cycles `cs`, both addresses advancing, is about to run; the events `rest` come
after it. -/
structure Stashing (cs : List HostCycle) (rest : List Event) (s : State) : Prop where
  slot : s.slot = .dma 0
  owned : s.busReq = true
  ready : refsReady s = true
  enabled : s.cycIrqEnable = true
  released : s.dataDir = .input
  env : s.env = cs.map .cycle ++ rest
  untimed : ∀ c ∈ cs, c.timing = none
  length : s.reg.length.toNat = cs.length
  incHost : s.reg.acr.getLsbD 7 = false
  incPer : s.reg.acr.getLsbD 6 = false

/-- The last cycle of a STASH is the one after which no cycle comes (R193). -/
theorem Stashing.lastCycle_iff {c : HostCycle} {cs : List HostCycle} {rest : List Event} {s : State}
    (h : Stashing (c :: cs) rest s) : LastCycle s ↔ cs = [] := by
  have length := h.length
  rw [List.length_cons] at length
  rw [← List.length_eq_zero_iff]
  show s.reg.length = 1#16 ↔ _
  rw [← BitVec.toNat_inj, length]
  exact Nat.add_eq_right

/-- A STASH is shorter than peripheral memory (00_scope.md R12). -/
theorem Stashing.length_lt {c : HostCycle} {cs : List HostCycle} {rest : List Event} {s : State}
    (h : Stashing (c :: cs) rest s) (size : ReuSize) : cs.length < size.bytes := by
  have length := h.length
  rw [List.length_cons] at length
  have := s.reg.length.isLt
  have : 65536 ≤ size.bytes := by cases size <;> decide
  omega

/-- One byte of a STASH was moved from `s` to `t` by the cycle `c`. -/
def ByteStashed (c : HostCycle) (s t : State) : Prop :=
  t.obs.dmaAddr = some s.reg.hostAddr ∧ memRead t.mem (perOffset s) = c.data ∧
    ∀ a, a ≠ perOffset s → memRead t.mem a = memRead s.mem a

/-- The STASH of `s` goes on in `t` with the cycles `cs`, at the next addresses (R195). -/
def StashContinues (cs : List HostCycle) (rest : List Event) (s t : State) : Prop :=
  Stashing cs rest t ∧ t.savedSlot = s.savedSlot ∧ t.cfg = s.cfg ∧ t.reg.hostAddr = s.reg.hostAddr + 1 ∧
    perOffset t = (perOffset s + 1) % s.cfg.reuSize.bytes

/-- The STASH of `s` has ended in `t` (R194, R205). -/
def StashDone (rest : List Event) (s t : State) : Prop :=
  t.env = rest ∧ t.slot = s.savedSlot ∧ t.busReq = false ∧ t.reg.status.getLsbD 6 = true

/-- A step of a STASH moves a byte, and ends it or goes on. -/
theorem Stashing.step_moves_byte {c : HostCycle} {cs : List HostCycle} {rest : List Event} {s : State}
    (h : Stashing (c :: cs) rest s) : ∃ t, step s = .next t ∧ ByteStashed c s t ∧
      (cs = [] → StashDone rest s t) ∧ (cs ≠ [] → StashContinues cs rest s t) := by
  have untimed := h.untimed c List.mem_cons_self
  obtain ⟨-, -, runs, -⟩ := cycleInterruptRunsSlotHandler s c (cs.map Event.cycle ++ rest) h.env untimed h.enabled
    (contended_owned h.owned) (edgeContention_untimed untimed (contended_owned h.owned))
  obtain ⟨t, g, run, stepped, ⟨-, -, -, obs⟩, frame, -, same, others, -, last, more⟩ :=
    stashCycleStoresAndSteps.2 (latchCycle c { s with env := cs.map Event.cycle ++ rest }) ⟨h.owned, h.ready, untimed⟩
  have stored := same.trans (dataRead_of_released (by exact h.released))
  have ⟨cfg, _, _, _, _, _, enabled, _, _, _, _, _, env, _⟩ := frame
  refine ⟨t, (runs 0 .dmaStash h.slot rfl).trans run, ⟨congrArg Obs.dmaAddr obs, stored, others⟩,
    fun hcs => ?done, fun hcs => ?continues⟩
  case done =>
    have fin := last (h.lastCycle_iff.2 hcs)
    obtain ⟨bus, slot⟩ := fin.released
    obtain ⟨eob, -⟩ := fin.flags
    exact ⟨by rw [env, hcs]; rfl, slot, bus, by rw [eob, Bool.or_true]⟩
  case continues =>
    have cont := more (mt h.lastCycle_iff.1 hcs)
    have ⟨_, slot, saved, bus, _, _, _, dir⟩ := cont
    obtain ⟨-, -, acr⟩ := cont.control stepped
    have next : Stashing cs rest t :=
      { slot
        owned := bus
        ready := frame.refsReady_eq.trans h.ready
        enabled := enabled.trans h.enabled
        released := dir.trans h.released
        env
        untimed := fun d hd => h.untimed d (List.mem_cons_of_mem c hd)
        length := cont.length_toNat (by exact h.length)
        incHost := (congrArg (·.getLsbD 7) acr).trans h.incHost
        incPer := (congrArg (·.getLsbD 6) acr).trans h.incPer }
    exact ⟨next, saved, cfg, cont.hostAddr_eq stepped h.incHost, cont.perOffset_eq frame stepped h.incPer⟩

/-- After a step that answers, the steps that remain. -/
theorem steps_succ_of_step {s t : State} (h : step s = .next t) (k : Nat) : steps (k + 1) s = steps k t := by
  show andThen (step s) (steps k) = _
  rw [h, andThen_next]

/-- A STASH with `N` cycles moves its block in `N` steps, and ends. -/
theorem Stashing.steps_move_block {cs : List HostCycle} {rest : List Event} {s : State} (h : Stashing cs rest s)
    (hcs : cs ≠ []) : ∃ t, steps cs.length s = .next t ∧ StashDone rest s t ∧
      BlockMoved s.cfg.reuSize.bytes (perOffset s) cs s.mem t.mem := by
  induction cs generalizing s with
  | nil => contradiction
  | cons c cs ih =>
    obtain ⟨t, run, ⟨-, same, others⟩, last, more⟩ := h.step_moves_byte
    have block {m : Mem} := BlockMoved.cons (m'' := m) (perOffset_lt s) (h.length_lt s.cfg.reuSize) same others
    rw [List.length_cons, steps_succ_of_step run]
    by_cases empty : cs = []
    · subst empty
      exact ⟨t, rfl, last rfl, block (blockMoved_nil ..)⟩
    · obtain ⟨next, saved, cfg, -, offset⟩ := more empty
      obtain ⟨u, runs, ⟨env, slot, done⟩, moved⟩ := ih next empty
      rw [cfg, offset] at moved
      exact ⟨u, runs, ⟨env, slot.trans saved, done⟩, block moved⟩

/-- The cycle `k` of a STASH drives the `k`-th host address, and releases the bus if it is the last (R207). -/
theorem Stashing.steps_drive_address {cs : List HostCycle} {rest : List Event} {s : State} (h : Stashing cs rest s)
    {k : Nat} (hk : k < cs.length) : ∃ u, steps (k + 1) s = .next u ∧
      u.obs.dmaAddr = some (s.reg.hostAddr + BitVec.ofNat 16 k) ∧ (u.busReq = true ↔ k + 1 < cs.length) := by
  induction k generalizing cs s with
  | zero =>
    obtain ⟨c, cs, rfl⟩ := List.exists_cons_of_length_pos hk
    obtain ⟨t, run, ⟨addr, -⟩, last, more⟩ := h.step_moves_byte
    refine ⟨t, steps_succ_of_step run 0, by rw [addr, BitVec.add_zero], ?_⟩
    rw [List.length_cons, Nat.add_lt_add_iff_right, List.length_pos_iff]
    by_cases empty : cs = []
    · obtain ⟨-, -, bus, -⟩ := last empty
      simp [bus, empty]
    · obtain ⟨next, -⟩ := more empty
      simp [next.owned, empty]
  | succ k ih =>
    obtain ⟨c, cs, rfl⟩ := List.exists_cons_of_length_pos (Nat.zero_lt_of_lt hk)
    have hk' : k < cs.length := Nat.lt_of_succ_lt_succ hk
    obtain ⟨t, run, -, -, more⟩ := h.step_moves_byte
    obtain ⟨next, -, -, host, -⟩ := more (List.ne_nil_of_length_pos (Nat.zero_lt_of_lt hk'))
    obtain ⟨u, runs, addr, bus⟩ := ih next hk'
    refine ⟨u, (steps_succ_of_step run _).trans runs, ?_, bus.trans (Nat.add_lt_add_iff_right).symm⟩
    rw [addr, host, BitVec.add_assoc, Nat.add_comm k 1, BitVec.ofNat_add]
    rfl

/-- Settles O51: the block by induction on the cycles, the address and the bus request of one cycle by induction on its
number. -/
theorem stashMovesBlock : Obligations.StashMovesBlock := by
  unfold Obligations.StashMovesBlock
  intro s cs rest slot bus refs enabled dir env untimed some length incHost incPer
  have stash : Stashing cs rest s := ⟨slot, bus, refs, enabled, dir, env, untimed, length, incHost, incPer⟩
  obtain ⟨t, runs, ⟨env, slot, released, eob⟩, moved⟩ := stash.steps_move_block (List.ne_nil_of_length_pos some)
  exact ⟨⟨t, runs, env, slot, released, eob, moved⟩, fun k hk => stash.steps_drive_address hk⟩

end Sys2Proof.Machine
end

section
/-! Writes by external code (60_exceptions.md R226, 10_state.md R55): UNMASKED_MUTATION while the interrupt is enabled, and
while it is masked each item by its own write, the references by ARM_REFS. -/

namespace Sys2Proof.Machine

/-- A listed write of external code is run by the step. -/
theorem step_extWrite {s : State} {x : ExtWrite} {rest : List Event} (hc : contended s = none)
    (he : s.env = .extWrite x :: rest) : step s = extWrite x { s with env := rest } := step_cons hc he

/-- External code may not write while the interrupt is enabled (60_exceptions.md R226). -/
theorem extWrite_enabled (x : ExtWrite) {s : State} (h : s.cycIrqEnable = true) :
    extWrite x s = .fault (.unmaskedMutation (itemOf x) s) := if_pos h

section
variable {s : State} (hm : s.cycIrqEnable = false)
include hm

theorem extWrite_status (v : Byte) : extWrite (.status v) s = .next { s with reg := { s.reg with status := v } } :=
  if_neg (by simp [hm])

theorem extWrite_reg (r : Reg) (v : Byte) : extWrite (.reg r v) s = .next { s with reg := s.reg.put r v } :=
  if_neg (by simp [hm])

theorem extWrite_shadow (r : Reg) (v : Byte) :
    extWrite (.shadow r v) s = .next { s with shadow := s.shadow.put r v } :=
  if_neg (by simp [hm])

theorem extWrite_mem {p : Nat} (v : Byte) (hp : p < s.cfg.reuSize.bytes) :
    extWrite (.mem p v) s = .next { s with mem := memWrite s.mem p v } :=
  (if_neg (by simp [hm])).trans (if_pos hp)

/-- No byte of peripheral memory lies beyond its size (20_memory.md R61; log entry 19). -/
theorem extWrite_mem_beyond {p : Nat} (v : Byte) (hp : s.cfg.reuSize.bytes ≤ p) :
    extWrite (.mem p v) s = .fault (.noSuchByte p s) :=
  (if_neg (by simp [hm])).trans (if_neg (Nat.not_lt.2 hp))

theorem extWrite_slot (h : Handler) : extWrite (.slot h) s = .next { s with slot := h } :=
  if_neg (by simp [hm])

theorem extWrite_savedSlot {h : Handler} (hh : slotIsDma h = false) :
    extWrite (.savedSlot h) s = .next { s with savedSlot := h } := by
  refine (if_neg (by simp [hm])).trans ?_
  cases h with
  | none | terminal | composite => rfl
  | dma code => cases hh

/-- The saved slot never holds a sequencer state (10_state.md R28; log entry 19). -/
theorem extWrite_savedSlot_dma (code : BitVec 3) : extWrite (.savedSlot (.dma code)) s = .refused (.savedDma code) :=
  if_neg (by simp [hm])

/-- The references are written by ARM_REFS alone (10_state.md R21; log entry 29). -/
theorem extWrite_ref (p : Profile) (offset : Int) : extWrite (.ref p offset) s = armRefs p offset s :=
  if_neg (by simp [hm])

end

theorem RegFile.status_put (f : RegFile) (r : Reg) (v : Byte) : (f.put r v).status = f.status := by
  cases r <;> rfl

/-- A profile that is classified has base offsets (00_scope.md R12). -/
theorem baseOf_classified (cfg : Params) {p : Profile} (h : p ≠ .unclassified) : ∃ b, baseOf cfg p = some b := by
  cases p with
  | unclassified => exact absurd rfl h
  | a | b => exact ⟨_, rfl⟩

/-- Settles O59: the mask decides, then the item written. -/
theorem externalWritesNeedMask : Obligations.ExternalWritesNeedMask := by
  unfold Obligations.ExternalWritesNeedMask
  intro s x rest hc he
  rw [step_extWrite hc he]
  refine ⟨extWrite_enabled (s := { s with env := rest }) x, fun masked => ?masked⟩
  have hm : State.cycIrqEnable { s with env := rest } = false := masked
  refine ⟨?status, ?reg, ?shadow, ?mem, ?beyond, ?slot, ?savedSlot, ?savedDma, ?ref, ?unarmed, ?badOffset⟩
  case status =>
    rintro v rfl
    exact extWrite_status hm v
  case reg =>
    rintro r v rfl
    exact ⟨_, extWrite_reg hm r v, s.reg.get_put_same r v, s.reg.status_put r v,
      fun _ hq => s.reg.get_put_other v hq, rfl⟩
  case shadow =>
    rintro r v rfl
    exact ⟨_, extWrite_shadow hm r v, s.shadow.get_put_same r v, fun _ hq => s.shadow.get_put_other v hq, rfl⟩
  case mem =>
    rintro p v rfl hp
    exact ⟨_, extWrite_mem hm v hp, memRead_memWrite_same s.mem p v, fun _ ha => memRead_memWrite_other s.mem v ha, rfl⟩
  case beyond =>
    rintro p v rfl hp
    exact extWrite_mem_beyond hm v hp
  case slot =>
    rintro h rfl
    exact extWrite_slot hm h
  case savedSlot =>
    rintro h rfl hh
    exact extWrite_savedSlot hm hh
  case savedDma =>
    rintro code rfl
    exact extWrite_savedSlot_dma hm code
  case ref =>
    rintro p b offset rfl hb hp hlo hhi
    rw [extWrite_ref hm]
    exact armRefs_eq_next.2 ⟨hp, b, baseOf_eq_some.2 hb, hlo, hhi, rfl⟩
  case unarmed =>
    rintro p offset rfl h
    rw [extWrite_ref hm]
    exact armRefs_unclassified h
  case badOffset =>
    rintro p offset rfl hp hs h
    obtain ⟨b, hb⟩ := baseOf_classified s.cfg hp
    rw [extWrite_ref hm]
    exact armRefs_badOffset (s := { s with env := rest }) hs hb h

end Sys2Proof.Machine
end

section
/-! Host cycles under the bus discipline (60_exceptions.md R213, R223; 42_dispatch.md R147): an untimed cycle of an
interface that rests, serves host cycles or runs a transfer completes. -/

namespace Sys2Proof.Machine

/-- A ready DMA cycle of an unreserved state completes (44_dma_sequencer.md R190). -/
theorem dmaState_completes {s : State} (h : DmaReady s) {code : BitVec 3} (h4 : code ≠ 4) (h5 : code ≠ 5) :
    ∃ t, runWord (.dmaState code) s = .next t := by
  obtain ⟨n⟩ := code
  fin_cases n
  · exact ⟨_, exec_dmaStash h⟩
  · exact ⟨_, exec_dmaFetch h⟩
  · exact ⟨_, exec_dmaSwap1 h⟩
  · exact ⟨_, exec_dmaVerify h⟩
  · exact absurd rfl h4
  · exact absurd rfl h5
  · exact ⟨_, exec_dmaSwap2 h⟩
  · exact ⟨_, exec_dmaVerifyErr h⟩

/-- The word of an installed handler pair runs as its host cycle (42_dispatch.md R146). -/
theorem handlerWord_mode {h : Handler} (hm : h.isMode = true) : ∃ w p i,
    handlerWord h = some w ∧ (∀ s, runWord w s = exec i s) ∧ (i = .cycleTerminal p ∨ i = .cycleComposite p) := by
  cases h with
  | terminal p => exact ⟨_, p, .cycleTerminal p, rfl, runWord_of_decode_ok rfl, .inl rfl⟩
  | composite p => exact ⟨_, p, .cycleComposite p, rfl, runWord_of_decode_ok rfl, .inr rfl⟩
  | none | dma => cases hm

section
variable {c : HostCycle} {s : State} (ht : c.timing = none)
include ht

/-- An interface that rests only latches an untimed cycle. -/
theorem Resting.hostClock_completes (h : Resting s) : ∃ t, hostClock c s = .next t := by
  obtain ⟨-, hm, had, hd, hrw, -⟩ := h
  exact ⟨_, hostClock_masked hm (edgeContention_untimed ht (contended_released had hrw hd))⟩

/-- An interface that serves host cycles completes an untimed one. -/
theorem ServingHost.hostClock_completes (h : ServingHost s) : ∃ t, hostClock c s = .next t := by
  obtain ⟨⟨-, hen, hp, ha, hd⟩, hmode, -, -, had, hrw⟩ := h
  have hc : contended (latchCycle c s) = none := contended_released had hrw hd
  have hdma : slotIsDma s.slot = false := by
    revert hmode
    cases s.slot <;> simp [Handler.isMode, slotIsDma]
  have ready : HostCycleReady (latchCycle c s) := ⟨refsReady_iff.2 ⟨ha, hp⟩, hrw, hdma, hc, ht⟩
  obtain ⟨w, p, i, hw, hrun, hi⟩ := handlerWord_mode hmode
  obtain ⟨t, complete, -⟩ := (hostCyclesComplete (latchCycle c s) p i hi).2.2 ready
  rw [hostClock_enabled ht hen (edgeContention_untimed ht hc), takeInterrupt_untimed (by exact hw) (by exact ht), hrun]
  exact ⟨t, complete⟩

/-- An interface that runs a transfer completes an untimed cycle. -/
theorem Transferring.hostClock_completes (h : Transferring s) : ∃ t, hostClock c s = .next t := by
  obtain ⟨⟨-, hen, hp, ha, -⟩, ⟨code, hs, h4, h5⟩, -, hb⟩ := h
  have hc : contended (latchCycle c s) = none := contended_owned hb
  have ready : DmaReady (latchCycle c s) := ⟨hb, refsReady_iff.2 ⟨ha, hp⟩, ht⟩
  rw [hostClock_enabled ht hen (edgeContention_untimed ht hc),
    takeInterrupt_untimed (s := latchCycle c s) (congrArg handlerWord hs) ht]
  exact dmaState_completes ready h4 h5

end

/-- Settles O56: by the three ways to keep the bus discipline. -/
theorem hostCyclesNeverStop : Obligations.HostCyclesNeverStop := by
  unfold Obligations.HostCyclesNeverStop
  intro s c hs he ht
  rw [step_eq (contended_of_busInvariant hs), he]
  obtain h | h | h := busInvariant_iff.1 (nextEvent_busInvariant hs)
  · exact h.hostClock_completes ht
  · exact h.hostClock_completes ht
  · exact h.hostClock_completes ht

end Sys2Proof.Machine
end

section
/-! What a timing record leaves alone (60_exceptions.md R219): the samples, the pair's handlers and the ends of a DMA cycle
do in a timed cycle what they do in an untimed one. -/

namespace Sys2Proof.Machine

/-- `s` in a cycle that carries the timing record `tm`. -/
def withTiming (tm : CycleTiming) (s : State) : State := { s with inp := { s.inp with timing := some tm } }

variable {tm : CycleTiming}

@[simp] theorem withTiming_addrRead (s : State) : addrRead (withTiming tm s) = addrRead s := rfl

@[simp] theorem withTiming_dataRead (s : State) : dataRead (withTiming tm s) = dataRead s := rfl

@[simp] theorem withTiming_ctrlRead (s : State) : ctrlRead (withTiming tm s) = ctrlRead s := rfl

@[simp] theorem withTiming_startEdge (s : State) : startEdge (withTiming tm s) = startEdge s := rfl

@[simp] theorem withTiming_reg (s : State) : (withTiming tm s).reg = s.reg := rfl

@[simp] theorem withTiming_swapLatch (s : State) : (withTiming tm s).swapLatch = s.swapLatch := rfl

@[simp] theorem withTiming_perRead (s : State) : perRead (withTiming tm s) = perRead s := rfl

@[simp] theorem sampled_withTiming (s : State) : sampled (withTiming tm s) = withTiming tm (sampled s) := rfl

/-! ### Read handlers -/

theorem readIndex_withTiming (i : BitVec 5) (s : State) :
    readIndex i (withTiming tm s) = ((readIndex i s).1, withTiming tm (readIndex i s).2) := by
  obtain ⟨n⟩ := i
  fin_cases n <;> rfl

theorem reuRead_withTiming (c : Ctrl) (a : Addr) (s : State) :
    reuRead c a (withTiming tm s) = ((reuRead c a s).1, withTiming tm (reuRead c a s).2) := by
  unfold reuRead
  rw [readIndex_withTiming]
  cases c.io2 <;> rfl

theorem pairRead_withTiming (h : Pair) (c : Ctrl) (a : Addr) (s : State) :
    pairRead h c a (withTiming tm s) = ((pairRead h c a s).1, withTiming tm (pairRead h c a s).2) := by
  cases h with
  | reu => exact reuRead_withTiming c a s
  | cart n => rfl

theorem compositeRead_withTiming (h : Pair) (c : Ctrl) (a : Addr) (s : State) :
    compositeRead h c a (withTiming tm s) = ((compositeRead h c a s).1, withTiming tm (compositeRead h c a s).2) := by
  have primary := pairRead_withTiming (tm := tm) h c a s
  cases hp : pairRead h c a s with
  | mk v u =>
    rw [hp] at primary
    cases v with
    | none => rw [compositeRead_of_declined primary, compositeRead_of_declined hp, reuRead_withTiming]
    | some v => rw [compositeRead_of_claimed (by simp [primary]), compositeRead_of_claimed (by simp [hp]), primary, hp]

/-! ### Write handlers -/

theorem regWrite_withTiming (r : Reg) (d : Byte) (s : State) :
    regWrite r d (withTiming tm s) = withTiming tm (regWrite r d s) := by
  cases r <;> rfl

theorem startTransfer_withTiming {code : BitVec 3} {s t : State} (h : startTransfer code s = .next t) :
    startTransfer code (withTiming tm s) = .next (withTiming tm t) := by
  obtain ⟨hs, rfl⟩ := startTransfer_eq_next.1 h
  exact startTransfer_eq_next.2 ⟨hs, rfl⟩

theorem wrCommand_withTiming {d : Byte} {s t : State} (h : wrCommand d s = .next t) :
    wrCommand d (withTiming tm s) = .next (withTiming tm t) := by
  by_cases hd : d.getLsbD 7 = true ∧ d.getLsbD 4 = true
  · rw [wrCommand_starts hd.1 hd.2] at h ⊢
    rw [regWrite_withTiming]
    exact startTransfer_withTiming h
  · rw [wrCommand_stores hd] at h ⊢
    rw [regWrite_withTiming, Host.Outcome.next.inj h]

/-- The write of an index is ignored, or is that of COMMAND or of a register without a further meaning (R164 to R177). -/
theorem writeIndex_cases (i : BitVec 5) : (∀ d s, writeIndex i d s = .next s) ∨ writeIndex i = wrCommand ∨
    ∃ r, ∀ d s, writeIndex i d s = .next (regWrite r d s) := by
  obtain ⟨n⟩ := i
  fin_cases n
  · exact .inl fun _ _ => rfl
  · exact .inr (.inl rfl)
  · exact .inr (.inr ⟨.hostLo, fun _ _ => rfl⟩)
  · exact .inr (.inr ⟨.hostHi, fun _ _ => rfl⟩)
  · exact .inr (.inr ⟨.perLo, fun _ _ => rfl⟩)
  · exact .inr (.inr ⟨.perHi, fun _ _ => rfl⟩)
  · exact .inr (.inr ⟨.bank, fun _ _ => rfl⟩)
  · exact .inr (.inr ⟨.lenLo, fun _ _ => rfl⟩)
  · exact .inr (.inr ⟨.lenHi, fun _ _ => rfl⟩)
  · exact .inr (.inr ⟨.imr, fun _ _ => rfl⟩)
  · exact .inr (.inr ⟨.acr, fun _ _ => rfl⟩)
  all_goals exact .inl fun _ _ => rfl

theorem writeIndex_withTiming {i : BitVec 5} {d : Byte} {s t : State} (h : writeIndex i d s = .next t) :
    writeIndex i d (withTiming tm s) = .next (withTiming tm t) := by
  obtain ignored | command | ⟨r, register⟩ := writeIndex_cases i
  · rw [ignored] at h ⊢
    rw [Host.Outcome.next.inj h]
  · rw [command] at h ⊢
    exact wrCommand_withTiming h
  · rw [register] at h ⊢
    rw [regWrite_withTiming, Host.Outcome.next.inj h]

theorem wrFf00_withTiming {s t : State} (h : wrFf00 s = .next t) :
    wrFf00 (withTiming tm s) = .next (withTiming tm t) := by
  unfold wrFf00 at h
  split at h
  · rename_i harmed
    exact (if_pos harmed).trans (startTransfer_withTiming h)
  · rename_i harmed
    obtain rfl := Host.Outcome.next.inj h
    exact if_neg harmed

theorem reuWrite_withTiming {c : Ctrl} {a : Addr} {d : Byte} {s : State} {r : Bool × State}
    (h : reuWrite c a d s = .next r) : reuWrite c a d (withTiming tm s) = .next (r.1, withTiming tm r.2) := by
  unfold reuWrite at h ⊢
  by_cases hio : c.io2 = true
  · rw [if_pos hio] at h ⊢
    obtain ⟨t, hw, hr⟩ := andThen_eq_next.1 h
    obtain rfl := Host.Outcome.next.inj hr
    rw [writeIndex_withTiming hw, andThen_next]
  · rw [if_neg hio] at h ⊢
    by_cases ha : a = triggerAddr
    · rw [if_pos ha] at h ⊢
      obtain ⟨t, hw, hr⟩ := andThen_eq_next.1 h
      obtain rfl := Host.Outcome.next.inj hr
      rw [wrFf00_withTiming hw, andThen_next]
      rfl
    · rw [if_neg ha] at h ⊢
      obtain rfl := Host.Outcome.next.inj h
      rfl

theorem pairWrite_withTiming {h : Pair} {c : Ctrl} {a : Addr} {d : Byte} {s : State} {r : Bool × State}
    (e : pairWrite h c a d s = .next r) : pairWrite h c a d (withTiming tm s) = .next (r.1, withTiming tm r.2) := by
  cases h with
  | reu => exact reuWrite_withTiming e
  | cart n =>
    obtain rfl := Host.Outcome.next.inj e
    rfl

theorem compositeWrite_withTiming {h : Pair} {c : Ctrl} {a : Addr} {d : Byte} {s : State} {r : Bool × State}
    (e : compositeWrite h c a d s = .next r) :
    compositeWrite h c a d (withTiming tm s) = .next (r.1, withTiming tm r.2) := by
  obtain ⟨⟨handled, u⟩, hp, hr⟩ := andThen_eq_next.1 e
  unfold compositeWrite
  rw [pairWrite_withTiming hp, andThen_next]
  cases handled with
  | true =>
    obtain rfl := Host.Outcome.next.inj hr
    rfl
  | false => exact reuWrite_withTiming hr

/-! ### Ends of a DMA cycle -/

theorem perWrite_withTiming (v : Byte) (s : State) :
    perWrite v (withTiming tm s) = withTiming tm (perWrite v s) := rfl

theorem decLength_withTiming (s : State) : decLength (withTiming tm s) = withTiming tm (decLength s) := rfl

theorem advance_withTiming (s : State) :
    advancePer (advanceHost (withTiming tm s)) = withTiming tm (advancePer (advanceHost s)) := by
  rw [advance_eq_steppedFrom (s := s) (u := withTiming tm s) rfl rfl, advance_eq_steppedFrom (s := s) (u := s) rfl rfl]
  rfl

theorem finalize_withTiming (eob ve : Bool) (s : State) :
    finalize eob ve (withTiming tm s) = withTiming tm (finalize eob ve s) := by
  simp only [finalize_eq]
  rfl

theorem stepTail_withTiming (code : BitVec 3) (s : State) :
    stepTail code (withTiming tm s) = withTiming tm (stepTail code s) := by
  show (if lastByte s.reg.length then _ else _) = _
  unfold stepTail
  split
  · exact finalize_withTiming true false s
  · rfl

end Sys2Proof.Machine
end

section
/-! A handler in a timed cycle (60_exceptions.md R219; 41_phase_tracker.md R128; 42_dispatch.md R149): its two waits and the
release of the data bus fault outside their times, and else it ends as in an untimed cycle. -/

namespace Sys2Proof.Machine

variable {tm : CycleTiming}

/-! ### Waits and the release of the data bus -/

section
variable {op : UnarmedOp} {edge r : Time} {call : Nat} {s : State} (href : refsReady s = true)
include href

theorem waitRef_inWindow (hw : InWindow s tm r call) :
    waitRef op edge r call (withTiming tm s) = .next (withTiming tm (waitUntil (edge + r) s)) :=
  waitRef_eq_next.2 ⟨href, (waitFault_inWindow (s := withTiming tm s) rfl).2 hw, rfl⟩

theorem waitRef_outOfWindow (hw : ¬ InWindow s tm r call) :
    waitRef op edge r call (withTiming tm s) = .fault (.timing .waitWindow edge (edge + r) (withTiming tm s)) := by
  unfold waitRef
  rw [if_pos (by exact href), waitFault_of_not_inWindow (s := withTiming tm s) rfl hw, unlessFault_some]

end

theorem releaseData_onTime {edge : Time} {s : State} (h : tm.release < tm.period) :
    releaseData edge (withTiming tm s) = .next (withTiming tm (dataDirIn s)) :=
  releaseData_eq_next.2 ⟨fun _ e => Option.some.inj e ▸ h, rfl⟩

/-- A release at or after the next start edge finds the bus still driven there (R219(d), R222; log entry 9). -/
theorem releaseData_late {edge : Time} {s : State} (h : tm.period ≤ tm.release) :
    releaseData edge (withTiming tm s) = .fault (.stillDriven edge (edge + BitVec.ofNat 32 tm.period)
      (currentWord (withTiming tm s)) (withTiming tm s)) := if_pos h

/-! ### The second wait of a handler -/

/-- What an operation answers that waits for phase-high, in `s`, with the data bus released: a fault outside the window, and
else `x`. -/
def SamplesInTime {α : Type} (s : State) (tm : CycleTiming) (edge : Time) (o : Host.Outcome α Fault Refusal) (x : α) :
    Prop :=
  (¬ InWindow s tm s.ref.high tm.second → ∃ u, o = .fault (.timing .waitWindow edge (edge + s.ref.high) u)) ∧
    (InWindow s tm s.ref.high tm.second → o = .next x)

/-- What an operation answers that drives the data bus until phase-low, in `s`: a fault outside the window of the wait or of
the release, with the bus driven, and else `x`. -/
def DrivesInTime {α : Type} (s : State) (tm : CycleTiming) (edge : Time) (o : Host.Outcome α Fault Refusal) (x : α) :
    Prop :=
  (¬ InWindow s tm s.ref.low tm.second →
    ∃ u, u.dataDir = .output ∧ o = .fault (.timing .waitWindow edge (edge + s.ref.low) u)) ∧
  (InWindow s tm s.ref.low tm.second → tm.period ≤ tm.release → ∃ u, u.dataDir = .output ∧
    o = .fault (.stillDriven edge (edge + BitVec.ofNat 32 tm.period) (currentWord u) u)) ∧
  (InWindow s tm s.ref.low tm.second → tm.release < tm.period → o = .next x)

/-- What follows on an operation in time is not reached by its faults. -/
theorem SamplesInTime.andThen {α β : Type} {s : State} {edge : Time} {o : Host.Outcome α Fault Refusal} {x : α} {y : β}
    (h : SamplesInTime s tm edge o x) {f : α → Host.Outcome β Fault Refusal} (hf : f x = .next y) :
    SamplesInTime s tm edge (andThen o f) y := by
  obtain ⟨late, inTime⟩ := h
  refine ⟨fun hw => ?_, fun hw => by rw [inTime hw, andThen_next, hf]⟩
  obtain ⟨u, e⟩ := late hw
  exact ⟨u, andThen_of_fault e f⟩

/-- What follows on an operation in time is not reached by its faults. -/
theorem DrivesInTime.andThen {α β : Type} {s : State} {edge : Time} {o : Host.Outcome α Fault Refusal} {x : α} {y : β}
    (h : DrivesInTime s tm edge o x) {f : α → Host.Outcome β Fault Refusal} (hf : f x = .next y) :
    DrivesInTime s tm edge (andThen o f) y := by
  obtain ⟨lateWait, lateRelease, inTime⟩ := h
  refine ⟨fun hw => ?_, fun hw hr => ?_, fun hw hr => by rw [inTime hw hr, andThen_next, hf]⟩
  · obtain ⟨u, hd, e⟩ := lateWait hw
    exact ⟨u, hd, andThen_of_fault e f⟩
  · obtain ⟨u, hd, e⟩ := lateRelease hw hr
    exact ⟨u, hd, andThen_of_fault e f⟩

/-- What follows on a wait for phase-high (20_memory.md R71). -/
theorem waitHigh_samplesInTime {op : UnarmedOp} {edge : Time} {s : State} {α : Type} {x : α}
    {f : State → Host.Outcome α Fault Refusal} (href : refsReady s = true)
    (hf : f (withTiming tm (waitUntil (edge + s.ref.high) s)) = .next x) :
    SamplesInTime s tm edge (andThen (waitRef op edge s.ref.high tm.second (withTiming tm s)) f) x := by
  refine ⟨fun hw => ⟨withTiming tm s, ?late⟩, fun hw => ?inTime⟩
  case late => exact andThen_of_fault (waitRef_outOfWindow href hw) f
  case inTime => rw [waitRef_inWindow href hw, andThen_next, hf]

/-- The data bus, once driven, is held until phase-low and released (42_dispatch.md R142; 20_memory.md R71). -/
theorem holdData_drivesInTime {op : UnarmedOp} {edge : Time} {s : State} {α : Type} {x : α}
    {f : State → Host.Outcome α Fault Refusal} (href : refsReady s = true) (hd : s.dataDir = .output)
    (hf : f (withTiming tm (dataDirIn (waitUntil (edge + s.ref.low) s))) = .next x) :
    DrivesInTime s tm edge
      (andThen (waitRef op edge s.ref.low tm.second (withTiming tm s)) fun u => andThen (releaseData edge u) f) x := by
  refine ⟨fun hw => ?lateWait, fun hw hr => ?lateRelease, fun hw hr => ?inTime⟩
  case lateWait => exact ⟨withTiming tm s, hd, andThen_of_fault (waitRef_outOfWindow href hw) _⟩
  case lateRelease =>
    refine ⟨withTiming tm (waitUntil (edge + s.ref.low) s), hd, ?_⟩
    rw [waitRef_inWindow href hw, andThen_next, releaseData_late hr, andThen_fault]
  case inTime => rw [waitRef_inWindow href hw, andThen_next, releaseData_onTime hr, andThen_next, hf]

/-- An answered read drives the data bus (42_dispatch.md R142). -/
theorem answerRead_drivesInTime {edge : Time} {v : Byte} {s : State} (href : refsReady s = true)
    (hdrive : s.inp.ctrl.rw = true ∨ s.busReq = true) :
    DrivesInTime s tm edge (andThen (answerRead edge v (withTiming tm s)) fun w => .next (w.setRet .none))
      (withTiming tm (answered edge v s)) := by
  unfold answerRead
  rw [(dataDirOut_eq_next (s := dataDrive v (withTiming tm s))).2 ⟨hdrive, rfl⟩, andThen_next]
  exact (holdData_drivesInTime (s := { s with dataLatch := v, dataDir := .output }) href rfl (by rfl)).andThen (by rfl)

/-- A DMA read waits for phase-high before it samples (20_memory.md R71; log entry 21). -/
theorem hostBusRead_samplesInTime {edge : Time} {a : Addr} {s : State} {r : Byte × State} (ht : s.inp.timing = none)
    (h : hostBusRead edge a s = .next r) (hb : s.busReq = true) (href : refsReady s = true) :
    SamplesInTime s tm edge (hostBusRead edge a (withTiming tm s)) (r.1, withTiming tm r.2) := by
  rw [hostBusRead_owned hb href ht] at h
  obtain rfl := Host.Outcome.next.inj h
  unfold hostBusRead
  rw [addrDirOut_owned (by exact hb), andThen_next, rwDrive_owned (by exact hb), andThen_next]
  exact waitHigh_samplesInTime (s := { s with addrLatch := a, addrDir := .output, rwLatch := true, rwDir := .output })
    href (by rfl)

/-- A DMA write drives the data bus (20_memory.md R71). -/
theorem hostBusWrite_drivesInTime {edge : Time} {a : Addr} {v : Byte} {s t : State} (ht : s.inp.timing = none)
    (h : hostBusWrite edge a v s = .next t) (hb : s.busReq = true) (href : refsReady s = true) :
    DrivesInTime s tm edge (hostBusWrite edge a v (withTiming tm s)) (withTiming tm t) := by
  rw [hostBusWrite_owned hb href ht] at h
  obtain rfl := Host.Outcome.next.inj h
  unfold hostBusWrite
  rw [addrDirOut_owned (by exact hb), andThen_next, rwDrive_owned (by exact hb), andThen_next,
    dataDirOut_owned (by exact hb), andThen_next]
  exact holdData_drivesInTime (s := { s with
    addrLatch := a, addrDir := .output, rwLatch := false, rwDir := .output, dataLatch := v, dataDir := .output })
    href rfl (by rfl)

/-! ### The handler as a whole -/

/-- What the handler that began in `s`, and that leaves `t` in an untimed cycle, answers in a timed one whose first wait kept
its window (60_exceptions.md R219). -/
def TimedRun (s t : State) (tm : CycleTiming) (o : Out) : Prop :=
  (∀ r, SecondRef s t r → ¬ InWindow s tm r tm.second → ∃ u,
    o = .fault (.timing .waitWindow (startEdge s) (startEdge s + r) u) ∧ (t.obs.driven ≠ none → u.dataDir = .output)) ∧
  (t.obs.driven ≠ none → InWindow s tm s.ref.low tm.second → tm.period ≤ tm.release → ∃ u, u.dataDir = .output ∧
    o = .fault (.stillDriven (startEdge s) (startEdge s + BitVec.ofNat 32 tm.period) (currentWord u) u)) ∧
  (SecondOnTime s t tm → o = .next (withTiming tm t))

section
variable {s t : State} {o : Out}

/-- A handler that drove the data bus. -/
theorem DrivesInTime.timedRun (h : DrivesInTime s tm (startEdge s) o (withTiming tm t)) (hd : t.obs.driven ≠ none) :
    TimedRun s t tm o := by
  obtain ⟨lateWait, lateRelease, inTime⟩ := h
  refine ⟨?_, fun _ => lateRelease, fun ⟨second, released⟩ => inTime (second _ (.inl ⟨hd, rfl⟩)) (released hd)⟩
  rintro r (⟨-, rfl⟩ | ⟨-, hn, -⟩) hw
  · obtain ⟨u, hu, e⟩ := lateWait hw
    exact ⟨u, e, fun _ => hu⟩
  · exact absurd hn hd

/-- A handler that read in a transfer. -/
theorem SamplesInTime.timedRun (h : SamplesInTime s tm (startEdge s) o (withTiming tm t))
    (hdma : slotIsDma s.slot = true) (hd : t.obs.driven = none) : TimedRun s t tm o := by
  obtain ⟨late, inTime⟩ := h
  refine ⟨?_, fun hn => absurd hd hn, fun ⟨second, _⟩ => inTime (second _ (.inr ⟨hdma, hd, rfl⟩))⟩
  rintro r (⟨hn, -⟩ | ⟨-, -, rfl⟩) hw
  · exact absurd hd hn
  · obtain ⟨u, e⟩ := late hw
    exact ⟨u, e, fun hn => absurd hd hn⟩

/-- A handler that made no second wait. -/
theorem timedRun_of_next (e : o = .next (withTiming tm t)) (hdma : slotIsDma s.slot = false)
    (hd : t.obs.driven = none) : TimedRun s t tm o := by
  refine ⟨?_, fun hn => absurd hd hn, fun _ => e⟩
  rintro r (⟨hn, -⟩ | ⟨h, -⟩)
  · exact absurd hd hn
  · simp [hdma] at h

end

/-! ### Host cycles -/

section
variable {rd : Ctrl → Addr → State → Option Byte × State} {wr : Ctrl → Addr → Byte → State → OutV Bool} {s t : State}

/-- A host cycle whose first wait keeps its window, by its three ends: a read answered, a read declined, a write. -/
theorem hostCycle_timedRun (hrd : ∀ c a s, ReadEffect c a s (rd c a s).2 (rd c a s).1)
    (hwr : ∀ c a d s r, wr c a d s = .next r → WriteEffect s r.2)
    (hrd' : ∀ c a s, rd c a (withTiming tm s) = ((rd c a s).1, withTiming tm (rd c a s).2))
    (hwr' : ∀ c a d s r, wr c a d s = .next r → wr c a d (withTiming tm s) = .next (r.1, withTiming tm r.2))
    (hslot : slotIsDma s.slot = false) (ht : s.inp.timing = none) (hw : InWindow s tm s.ref.high s.inp.latency)
    (run : hostCycle rd wr s = .next t) : TimedRun s t tm (hostCycle rd wr (withTiming tm s)) := by
  obtain ⟨href, hc, -⟩ := hostCycle_effect hrd hwr run
  have begun : awaitPhaseHigh (withTiming tm s) =
      .next (withTiming tm (waitUntil (startEdge s + s.ref.high) (enterHandler s))) :=
    waitRef_inWindow (s := enterHandler s) href hw
  rw [hostCycle_armed href hc ht] at run
  rw [hostCycle_sampled (s := withTiming tm s) hc begun]
  simp only [withTiming_ctrlRead, withTiming_addrRead, withTiming_dataRead, withTiming_startEdge, sampled_withTiming,
    hrd']
  cases hrw : (ctrlRead s).rw with
  | true =>
    rw [hrw, if_pos rfl] at run
    rw [if_pos rfl]
    have eff := hrd (ctrlRead s) (addrRead s) (sampled s)
    generalize rd (ctrlRead s) (addrRead s) (sampled s) = r at run eff
    obtain ⟨v | v, u⟩ := r
    · obtain rfl := Host.Outcome.next.inj run
      obtain ⟨f, irq, k, l, rfl, -⟩ := eff
      exact timedRun_of_next rfl hslot rfl
    · obtain ⟨hdrive, rfl⟩ := answerRead_eq_next run
      obtain ⟨f, irq, k, l, rfl, -⟩ := eff
      exact (answerRead_drivesInTime (s := { sampled s with reg := f, irqOut := irq, cart := k, cartLines := l })
        href hdrive).timedRun (s := s) (by simp [answered])
  | false =>
    rw [hrw, if_neg (by simp)] at run
    rw [if_neg (by simp)]
    obtain ⟨r, hr, e⟩ := andThen_eq_next.1 run
    obtain rfl := Host.Outcome.next.inj e
    rw [hwr' _ _ _ _ _ hr, andThen_next]
    obtain ⟨f, sh, slot, saved, bus, k, l, eff, -⟩ := hwr _ _ _ _ _ hr
    exact timedRun_of_next rfl hslot (by rw [eff]; rfl)

end

/-- A terminal or composite cycle whose first wait keeps its window. -/
theorem pairCycle_timedRun {h : Pair} {i : Instr} (hi : i = .cycleTerminal h ∨ i = .cycleComposite h) {s t : State}
    (hslot : slotIsDma s.slot = false) (ht : s.inp.timing = none) (hw : InWindow s tm s.ref.high s.inp.latency)
    (run : exec i s = .next t) : TimedRun s t tm (exec i (withTiming tm s)) := by
  obtain rfl | rfl := hi
  · exact hostCycle_timedRun (pairRead_effect h) (fun _ _ _ _ _ => pairWrite_effect) (pairRead_withTiming h)
      (fun _ _ _ _ _ => pairWrite_withTiming) hslot ht hw run
  · exact hostCycle_timedRun (compositeRead_effect h) (fun _ _ _ _ _ => compositeWrite_effect)
      (compositeRead_withTiming h) (fun _ _ _ _ _ => compositeWrite_withTiming) hslot ht hw run

/-! ### DMA cycles -/

/-- A DMA cycle whose first wait keeps its window goes on with its body. -/
theorem dmaCycle_inWindow {body : Time → State → Out} {s : State} (href : refsReady s = true)
    (hw : InWindow s tm s.ref.dmaHigh s.inp.latency) : dmaCycle body (withTiming tm s) =
      andThen (body (startEdge s) (withTiming tm (dmaBegun s))) fun u => .next (u.setRet .none) :=
  congrArg (andThen · _) (waitRef_inWindow (s := enterHandler s) href hw)

section
variable {s t : State} (h : DmaReady s) (hw : InWindow s tm s.ref.dmaHigh s.inp.latency)
include h hw

/-- A DMA cycle that reads, and goes on with `f`. -/
theorem dmaRead_timedRun {f : Byte × State → Out}
    (hf : ∀ v u, f (v, withTiming tm u) = andThen (f (v, u)) fun t => .next (withTiming tm t))
    (run : dmaCycle (fun edge t => andThen (hostBusRead edge t.reg.hostAddr t) f) s = .next t) (pins : ReadPins s t)
    (hdma : slotIsDma s.slot = true) :
    TimedRun s t tm (dmaCycle (fun edge t => andThen (hostBusRead edge t.reg.hostAddr t) f) (withTiming tm s)) := by
  obtain ⟨hb, href, ht⟩ := h
  obtain ⟨-, v, hbody, rfl⟩ := dmaCycle_eq_next run
  obtain ⟨⟨b, u⟩, hread, htail⟩ := andThen_eq_next.1 hbody
  obtain ⟨-, -, -, hobs⟩ := pins
  have tail : f (b, withTiming tm u) = .next (withTiming tm v) := by rw [hf, htail, andThen_next]
  rw [dmaCycle_inWindow href hw]
  exact (((hostBusRead_samplesInTime (s := dmaBegun s) ht hread hb href).andThen tail).andThen
    (by rfl)).timedRun (s := s) hdma (congrArg Obs.driven hobs)

/-- A DMA cycle that writes the peripheral byte, and goes on with `f`. -/
theorem dmaWrite_timedRun {b : Byte} {f : State → Out}
    (hf : ∀ u, f (withTiming tm u) = andThen (f u) fun t => .next (withTiming tm t))
    (run : dmaCycle (fun edge t => andThen (hostBusWrite edge t.reg.hostAddr (perRead t) t) f) s = .next t)
    (pins : WritePins b s t) : TimedRun s t tm
      (dmaCycle (fun edge t => andThen (hostBusWrite edge t.reg.hostAddr (perRead t) t) f) (withTiming tm s)) := by
  obtain ⟨hb, href, ht⟩ := h
  obtain ⟨-, v, hbody, rfl⟩ := dmaCycle_eq_next run
  obtain ⟨u, hwrite, htail⟩ := andThen_eq_next.1 hbody
  obtain ⟨-, -, -, hobs⟩ := pins
  have tail : f (withTiming tm u) = .next (withTiming tm v) := by rw [hf, htail, andThen_next]
  rw [dmaCycle_inWindow href hw]
  exact (((hostBusWrite_drivesInTime (s := dmaBegun s) ht hwrite hb href).andThen tail).andThen
    (by rfl)).timedRun (s := s) ((congrArg Obs.driven hobs).trans_ne (Option.some_ne_none b))

end

end Sys2Proof.Machine
end

section
/-! The timed host cycle (60_exceptions.md R219, R222; 41_phase_tracker.md R128; 42_dispatch.md R149): the checks at its
start edge, of its match, of its handler, and of its end. -/

namespace Sys2Proof.Machine

variable {tm : CycleTiming}

/-! ### The six states -/

/-- A sequencer state whose first wait keeps its window: by the access of each of the six. -/
theorem dmaState_timedRun {code : BitVec 3} {s t : State} (ht : s.inp.timing = none) (hdma : slotIsDma s.slot = true)
    (hw : InWindow s tm s.ref.dmaHigh s.inp.latency) (run : runWord (.dmaState code) s = .next t) :
    TimedRun s t tm (runWord (.dmaState code) (withTiming tm s)) := by
  obtain ⟨stores, ⟨hb, href, -⟩, -⟩ := dmaState_effect run
  have h : DmaReady s := ⟨hb, href, ht⟩
  obtain ⟨n⟩ := code
  fin_cases n
  · obtain ⟨t', g, run', -, pins, -⟩ := stashCycleStoresAndSteps.2 s h
    obtain rfl := Host.Outcome.next.inj (run.symm.trans run')
    refine dmaRead_timedRun h hw (fun v u => ?_) run pins hdma
    simp only [advance_perWrite, perWrite_withTiming, advance_withTiming, stepTail_withTiming, andThen_next]
  · obtain ⟨t', g, run', -, pins, -⟩ := fetchCycleWritesAndSteps.2 s h
    obtain rfl := Host.Outcome.next.inj (run.symm.trans run')
    refine dmaWrite_timedRun h hw (fun u => ?_) run pins
    simp only [advance_withTiming, stepTail_withTiming, andThen_next]
  · obtain ⟨t', run', pins, -⟩ := swapFirstHalf.2 s h
    obtain rfl := Host.Outcome.next.inj (run.symm.trans run')
    exact dmaRead_timedRun h hw (fun v u => rfl) run pins hdma
  · obtain ⟨t', g, run', -, pins, -⟩ := verifyCycleCompares.2 s h
    obtain rfl := Host.Outcome.next.inj (run.symm.trans run')
    refine dmaRead_timedRun h hw (fun v u => ?_) run pins hdma
    simp only [advance_withTiming, stepTail_withTiming, finalize_withTiming, withTiming_perRead, withTiming_reg]
    split
    · rfl
    · split <;> rfl
  · exact absurd run reservedCycle_ne_next
  · exact absurd run reservedCycle_ne_next
  · obtain ⟨t', g, run', -, pins, -⟩ := swapSecondHalf.2 s h
    obtain rfl := Host.Outcome.next.inj (run.symm.trans run')
    refine dmaWrite_timedRun h hw (fun u => ?_) run pins
    simp only [withTiming_swapLatch, perWrite_withTiming, advance_withTiming, stepTail_withTiming, andThen_next]
  · obtain ⟨t', g, run', -, pins, -⟩ := verifyErrorCycle.2 s h
    obtain rfl := Host.Outcome.next.inj (run.symm.trans run')
    refine dmaRead_timedRun h hw (fun v u => ?_) run pins hdma
    simp only [advance_withTiming, decLength_withTiming, finalize_withTiming, withTiming_perRead, withTiming_reg]
    split <;> rfl

/-! ### The first wait -/

/-- The word of a sequencer state runs a DMA cycle, whatever the code (44_dma_sequencer.md R190). -/
theorem runWord_dmaState (code : BitVec 3) : ∃ body, runWord (.dmaState code) = dmaCycle body := by
  obtain ⟨n⟩ := code
  fin_cases n <;> exact ⟨_, rfl⟩

/-- The handler of a slot whose first wait does not keep its window (60_exceptions.md R219). -/
theorem runWord_firstWait_outOfWindow {s : State} {w : OpWord} (hw : handlerWord s.slot = some w)
    (hc : contended s = none) (href : refsReady s = true) (hwin : ¬ InWindow s tm (firstRef s) s.inp.latency) :
    runWord w (withTiming tm s) = .fault (.timing .waitWindow (startEdge s) (startEdge s + firstRef s)
      (enterHandler (withTiming tm s))) := by
  have late (op : UnarmedOp) := waitRef_outOfWindow (op := op) (edge := startEdge s) (s := enterHandler s) href hwin
  unfold firstRef at late ⊢
  cases hs : s.slot with
  | none => simp [hs, handlerWord] at hw
  | terminal p | composite p =>
    rw [hs] at hw late
    obtain rfl := Option.some.inj hw
    exact hostCycle_await_fault (s := withTiming tm s) hc (late .hostCycle)
  | dma code =>
    rw [hs] at hw late
    obtain rfl := Option.some.inj hw
    obtain ⟨body, e⟩ := runWord_dmaState code
    rw [e]
    exact andThen_of_fault (late .dmaCycle) _

/-- The handler of a slot whose first wait keeps its window. -/
theorem runWord_timedRun {s t : State} {w : OpWord} (hw : handlerWord s.slot = some w) (ht : s.inp.timing = none)
    (hwin : InWindow s tm (firstRef s) s.inp.latency) (run : runWord w s = .next t) :
    TimedRun s t tm (runWord w (withTiming tm s)) := by
  unfold firstRef at hwin
  cases hs : s.slot with
  | none => simp [hs, handlerWord] at hw
  | terminal p =>
    rw [hs] at hw hwin
    obtain rfl := Option.some.inj hw
    exact pairCycle_timedRun (.inl rfl) (congrArg slotIsDma hs) ht hwin run
  | composite p =>
    rw [hs] at hw hwin
    obtain rfl := Option.some.inj hw
    exact pairCycle_timedRun (.inr rfl) (congrArg slotIsDma hs) ht hwin run
  | dma code =>
    rw [hs] at hw hwin
    obtain rfl := Option.some.inj hw
    exact dmaState_timedRun ht (congrArg slotIsDma hs) hwin run

/-! ### The interrupt taken -/

theorem takeInterrupt_of_fault {s : State} {w : OpWord} {f : Fault} (hw : handlerWord s.slot = some w)
    (h : runWord w s = .fault f) : takeInterrupt s = .fault f := by
  unfold takeInterrupt
  rw [hw]
  exact andThen_of_fault h _

/-- A handler that ends is checked for an overrun (60_exceptions.md R219). -/
theorem takeInterrupt_of_next {s u : State} {w : OpWord} (hw : handlerWord s.slot = some w)
    (h : runWord w s = .next u) : takeInterrupt s = unlessFault (overrun s u) (.next u) := by
  unfold takeInterrupt
  rw [hw]
  exact congrArg (andThen · _) h

/-- A handler not done before the sample point of the next cycle (R219(c)). -/
theorem overrun_late {s u : State} (h : tm.period + s.ref.high.toNat ≤ tm.done) : overrun (withTiming tm s) u =
    some (.timing .overrun (startEdge s) (startEdge s + BitVec.ofNat 32 tm.period + s.ref.high) u) := if_pos h

theorem overrun_inTime {s u : State} (h : tm.done < tm.period + s.ref.high.toNat) :
    overrun (withTiming tm s) u = none := if_neg (Nat.not_le.2 h)

section
variable {s t : State} {w : OpWord} (hw : handlerWord s.slot = some w)
  (h : runWord w (withTiming tm s) = .next (withTiming tm t))
include hw h

theorem takeInterrupt_overrun (hdone : tm.period + s.ref.high.toNat ≤ tm.done) : takeInterrupt (withTiming tm s) =
    .fault (.timing .overrun (startEdge s) (startEdge s + BitVec.ofNat 32 tm.period + s.ref.high)
      (withTiming tm t)) := by
  rw [takeInterrupt_of_next (s := withTiming tm s) hw h, overrun_late hdone, unlessFault_some]

theorem takeInterrupt_inTime (hdone : tm.done < tm.period + s.ref.high.toNat) :
    takeInterrupt (withTiming tm s) = .next (withTiming tm t) := by
  rw [takeInterrupt_of_next (s := withTiming tm s) hw h, overrun_inTime hdone, unlessFault_none]

end

/-! ### The start edge and the match -/

theorem contended_of_edgeContention {s : State} (h : edgeContention s = none) : contended s = none := by
  cases hc : contended s with
  | none => rfl
  | some b => simp [edgeContention, contention, hc] at h

/-- The data bus still driven at the start edge of a timed cycle (R219(d), R222; log entry 9). -/
theorem edgeContention_stillDriven {s : State} (hc : contended s = none) (ht : s.inp.timing = some tm)
    (hd : s.dataDir = .output) :
    edgeContention s = some (.stillDriven (startEdge s) (startEdge s) (currentWord s) s) := by
  simp [edgeContention, contention, hc, ht, hd]

section
variable {b : Bool} {s : State} (ht : s.inp.timing = some tm)
include ht

/-- A match that finds the pending flag set is missed (R219(b)). -/
theorem missedCycle_pending (hb : b = true) :
    missedCycle b s = some (.timing .missedCycle (startEdge s) (startEdge s) s) := by
  simp [missedCycle, ht, hb]

/-- The next match is missed where the handler starts only after it (R219(b)). -/
theorem missedCycle_next (hb : b = false) (h : tm.period ≤ s.inp.latency) : missedCycle b s =
    some (.timing .missedCycle (startEdge s) (startEdge s + BitVec.ofNat 32 tm.period) s) := by
  simp [missedCycle, ht, hb, h]

theorem missedCycle_none (hb : b = false) (h : s.inp.latency < tm.period) : missedCycle b s = none := by
  simp [missedCycle, ht, hb, h]

end

/-- A cycle is checked at its start edge before anything else (log entry 27). -/
theorem hostClock_edgeFault {c : HostCycle} {s : State} {f : Fault} (h : edgeContention (latchCycle c s) = some f) :
    hostClock c s = .fault f := by
  show unlessFault (edgeContention (latchCycle c s)) _ = _
  rw [h, unlessFault_some]

section
variable {c : HostCycle} {s : State} (hedge : edgeContention (latchCycle c s) = none) (hen : s.cycIrqEnable = true)
include hedge hen

/-- An enabled cycle without contention at its start edge is checked for a missed match and taken (R146). -/
theorem hostClock_of_edge :
    hostClock c s = unlessFault (missedCycle s.cycIrqPending (latchCycle c s)) (takeInterrupt (latchCycle c s)) := by
  show unlessFault (edgeContention (latchCycle c s)) _ = _
  rw [hedge, unlessFault_none]
  exact if_pos hen

theorem hostClock_missed {f : Fault} (h : missedCycle s.cycIrqPending (latchCycle c s) = some f) :
    hostClock c s = .fault f := by
  rw [hostClock_of_edge hedge hen, h, unlessFault_some]

theorem hostClock_taken (h : missedCycle s.cycIrqPending (latchCycle c s) = none) :
    hostClock c s = takeInterrupt (latchCycle c s) := by
  rw [hostClock_of_edge hedge hen, h, unlessFault_none]

end

/-- An installed handler has an operation (42_dispatch.md R146). -/
theorem handlerWord_installed {h : Handler} (hi : Installed h) : ∃ w, handlerWord h = some w := by
  cases h with
  | none => exact absurd rfl hi.1
  | terminal | composite | dma => exact ⟨_, rfl⟩

/-- No host cycle changes the inputs it runs with (10_state.md R34). -/
theorem hostClock_inp {c : HostCycle} {s t : State} (h : hostClock c s = .next t) : t.inp = (latchCycle c s).inp := by
  obtain ⟨-, rfl⟩ | ⟨-, -, -, -, ends⟩ | ⟨-, _, _, -, ⟨-, -, u, v, access, ends, rfl⟩, -⟩ :=
    hostClock_cases h
  · rfl
  · obtain ⟨-, v, u, ⟨f, irq, k, l, rfl, -⟩, rfl⟩ | ⟨-, u, ⟨f, irq, k, l, rfl, -⟩, rfl⟩ |
      ⟨-, u, ⟨f, sh, slot, saved, bus, k, l, rfl, -⟩, rfl⟩ := ends <;> rfl
  · obtain ⟨n, m, a, rl, dl, dd, o, mm, sw, rm, rfl, -⟩ := access
    obtain ⟨f, code, rfl, -⟩ | ⟨f, irq, rfl, -⟩ := ends <;> rfl

/-! ### The step -/

/-- Settles O60: the step checks the start edge, the match, the waits and the release of the handler, and its end, in this
order. -/
theorem timedCycleFaults : Obligations.TimedCycleFaults := by
  unfold Obligations.TimedCycleFaults
  intro s c tm rest he ht hc began edge next
  obtain ⟨addr, ctrl, data, toEdge, latency, timing⟩ := c
  obtain rfl : timing = some tm := ht
  rw [step_cons hc he]
  refine ⟨fun b hb => hostClock_contended hb, fun hb hd => hostClock_edgeFault (edgeContention_stillDriven hb rfl hd),
    fun hedge hen => ⟨fun hp => ?pending, fun hp hl => ?nextMatch, fun hp hl href hslot => ?taken⟩⟩
  case pending => exact hostClock_missed hedge hen (missedCycle_pending rfl hp)
  case nextMatch => exact hostClock_missed hedge hen (missedCycle_next rfl hp hl)
  have taken := hostClock_taken (s := { s with env := rest }) hedge hen (missedCycle_none rfl hp hl)
  let arrived := latchCycle ⟨addr, ctrl, data, toEdge, latency, none⟩ { s with env := rest }
  refine ⟨fun hw => ?firstWait, fun hw t run => ?handler⟩
  case firstWait =>
    obtain ⟨w, hword⟩ := handlerWord_installed hslot
    have uncontended : contended began = none := contended_of_edgeContention hedge
    exact taken.trans (takeInterrupt_of_fault hword
      (runWord_firstWait_outOfWindow (s := arrived) hword uncontended href hw))
  case handler =>
    rw [step_cons (by exact hc) rfl] at run
    have inputs : { t with inp := began.inp } = withTiming tm t := by
      rw [withTiming, hostClock_inp run]
      rfl
    obtain ⟨-, ⟨masked, -⟩ | ⟨-, -, untimed⟩⟩ := hostClock_eq_next.1 run
    · exact absurd (hen.symm.trans masked) (by simp)
    obtain ⟨w, hword, handled, -⟩ := takeInterrupt_eq_next.1 untimed
    obtain ⟨lateWait, lateRelease, inTime⟩ := runWord_timedRun (s := arrived) hword rfl hw handled
    refine ⟨fun r hr hw2 => ?secondWait, fun hd hw2 hr => ?release, fun hs hdone => ?overrun, fun hs hdone => ?ends⟩
    case secondWait =>
      obtain ⟨u, e, hu⟩ := lateWait r hr hw2
      exact ⟨u, taken.trans (takeInterrupt_of_fault hword e), hu⟩
    case release =>
      obtain ⟨u, hu, e⟩ := lateRelease hd hw2 hr
      exact ⟨u, hu, taken.trans (takeInterrupt_of_fault hword e)⟩
    case overrun =>
      rw [inputs]
      exact taken.trans (takeInterrupt_overrun (s := arrived) hword (inTime hs) hdone)
    case ends =>
      rw [inputs]
      exact taken.trans (takeInterrupt_inTime (s := arrived) hword (inTime hs) hdone)

end Sys2Proof.Machine
end

section
/-! Where the bus request and the interrupt line may change in a conforming step (44_dma_sequencer.md R207,
70_reset_and_hazards.md R256). -/

namespace Sys2Proof.Machine

/-! ### The ways a step can treat the two lines -/

/-- The bus request and the interrupt line are as before. -/
def LinesKept (s t : State) : Prop := t.busReq = s.busReq ∧ t.irqOut = s.irqOut

/-- The bus request and the interrupt line are deasserted. -/
def LinesReleased (t : State) : Prop := t.busReq = false ∧ t.irqOut = false

/-- A write cycle of a handler pair installed a transfer, which asserts the bus request (43_reu_registers.md R176). -/
def TransferInstalled (s t : State) : Prop :=
  t.busReq = true ∧ t.irqOut = s.irqOut ∧ slotIsDma s.slot = false ∧ slotIsDma t.slot = true ∧ t.savedSlot = s.slot ∧
    t.obs.data ≠ none

/-- A cycle of a handler pair whose word is a STATUS read was answered (43_reu_registers.md R152). -/
def StatusAnswered (s t : State) : Prop :=
  t.busReq = s.busReq ∧ slotIsDma s.slot = false ∧ StatusRead s t ∧ ∃ w, t.obs.word = some w ∧ w &&& 0x3001F = 0x30000

/-- The last cycle of a transfer restored the handler, and asserted the interrupt line only with IP set
(44_dma_sequencer.md R205, R206). -/
def HandlerRestored (s t : State) : Prop :=
  t.busReq = false ∧ (t.irqOut = s.irqOut ∨ t.irqOut = true ∧ t.reg.status.getLsbD 7 = true) ∧
    slotIsDma s.slot = true ∧ t.slot = s.savedSlot ∧ t.obs.dmaAddr ≠ none

/-- How a host cycle can change the two lines. -/
def CycleChange (s t : State) : Prop := TransferInstalled s t ∨ StatusAnswered s t ∨ HandlerRestored s t

/-- DISABLE_INTERFACE, or ENABLE_INTERFACE of an active interface, which begins with it (42_dispatch.md R134). -/
def Disabling (e : Event) (s : State) : Prop :=
  ∃ w, e = .op w ∧ (decode w = .ok .disableInterface ∨
    ∃ mode offset, decode w = .ok (.enableInterface mode offset) ∧ s.ifState = .active)

/-! ### Host cycles -/

/-- A word with `io2` and the read line asserted and index 0 is a STATUS read, whatever its mirror bits
(30_encoding.md R85, R86). -/
theorem statusReadWord_masked {w : CycleWord} (h17 : w.getLsbD 17 = true) (h16 : w.getLsbD 16 = true)
    (hi : w.extractLsb' 0 5 = 0) : w &&& 0x3001F = 0x30000 := by
  obtain ⟨e17, e16, eIndex⟩ := registerMask_fields w
  have mirror : (w &&& 0x3001F).extractLsb' 5 11 = 0 := by
    rw [BitVec.extractLsb'_and]
    exact BitVec.and_zero
  rw [← control_append_mirror_append_index (w &&& 0x3001F), e17, e16, eIndex, mirror, h17, h16, hi]
  rfl

/-- The flags that a STATUS read clears are clear after it. -/
theorem StatusRead.flags_clear {s t : State} (h : StatusRead s t) : t.reg.status &&& 0xE0 = 0 := by
  rw [h.1, BitVec.and_assoc]
  exact BitVec.and_zero

/-- A handler pair's cycle asserts the bus request by a trigger in a write, and deasserts the interrupt line by a STATUS
read that is answered. -/
theorem HostEffect.lines {s t : State} (h : HostEffect s t) (pair : slotIsDma s.slot = false) :
    LinesKept s t ∨ CycleChange s t := by
  obtain ⟨-, -, ⟨hrw, v, u, ⟨f, irq, k, l, rfl, hf⟩, rfl⟩ | ⟨-, u, ⟨f, irq, k, l, rfl, hf⟩, rfl⟩ | ⟨-, u, hu, rfl⟩⟩ := h
  · obtain ⟨-, rfl⟩ | ⟨rfl, rfl, hv, hio2, hindex⟩ := hf
    · exact .inl ⟨rfl, rfl⟩
    · obtain ⟨h17, h16, -, hlow⟩ := wordOf_fields (addrRead s) (ctrlRead s)
      have word := statusReadWord_masked (h17.trans hio2) (h16.trans hrw) (hlow.trans hindex)
      exact .inr (.inr (.inl ⟨rfl, pair, ⟨rfl, hv, rfl⟩, currentWord s, rfl, word⟩))
  · obtain ⟨-, rfl⟩ | ⟨-, -, hv, -⟩ := hf
    · exact .inl ⟨rfl, rfl⟩
    · cases hv
  · obtain ⟨f, sh, slot, saved, bus, k, l, rfl, -, ⟨-, -, rfl⟩ | ⟨-, rfl, rfl, type, rfl⟩⟩ := hu
    · exact .inl ⟨rfl, rfl⟩
    · exact .inr (.inl ⟨rfl, rfl, pair, rfl, rfl, Option.some_ne_none _⟩)

/-- A cycle of a transfer keeps the lines, or is the last one. -/
theorem DmaEffect.lines {stores : Bool} {s t : State} (h : DmaEffect stores s t) (dma : slotIsDma s.slot = true) :
    LinesKept s t ∨ CycleChange s t := by
  obtain ⟨-, -, u, v, ⟨n, m, a, rl, dl, dd, o, mm, sw, rm, rfl, -, -, haddr, -⟩, ending, rfl⟩ := h
  obtain ⟨f, code, rfl, -⟩ | ⟨f, irq, rfl, -, hirq⟩ := ending
  · exact .inl ⟨rfl, rfl⟩
  · exact .inr (.inr (.inr ⟨rfl, hirq, dma, rfl, haddr⟩))

theorem hostClock_lines {c : HostCycle} {s t : State} (h : hostClock c s = .next t) :
    LinesKept s t ∨ CycleChange s t := by
  obtain ⟨-, rfl⟩ | ⟨-, ⟨p, hp⟩, eff⟩ | ⟨-, code, stores, hc, eff, -⟩ := hostClock_cases h
  · exact .inl ⟨rfl, rfl⟩
  · have pair : slotIsDma s.slot = false := by obtain hp | hp := hp <;> rw [hp] <;> rfl
    exact eff.lines pair
  · have dma : slotIsDma s.slot = true := by rw [hc]; rfl
    exact eff.lines dma

/-! ### The other events of a conforming run -/

theorem armRefs_linesKept {p : Profile} {offset : Int} {s t : State} (h : armRefs p offset s = .next t) :
    LinesKept s t := by
  obtain ⟨-, b, -, -, -, rfl⟩ := armRefs_eq_next.1 h
  exact ⟨rfl, rfl⟩

theorem extWrite_linesKept {x : ExtWrite} {s t : State} (h : extWrite x s = .next t) : LinesKept s t := by
  obtain ⟨-, ⟨f, sh, slot, rfl⟩ | ⟨p, v, -, rfl⟩ | ⟨saved, -, rfl⟩ | ⟨p, offset, h⟩⟩ := extWrite_cases h
  · exact ⟨rfl, rfl⟩
  · exact ⟨rfl, rfl⟩
  · exact ⟨rfl, rfl⟩
  · exact armRefs_linesKept h

theorem extMark_linesKept {r : Region} {s t : State} (h : extMark r s = .next t) : LinesKept s t := by
  obtain ⟨-, rfl⟩ := extMark_eq_next.1 h
  obtain ⟨b, k, e⟩ := markRegion_eq r s
  rw [e]
  exact ⟨rfl, rfl⟩

theorem disableInterface_linesReleased (s : State) : LinesReleased (disableInterface s) := by
  rw [disableInterface_eq]
  exact ⟨rfl, rfl⟩

/-- ENABLE_INTERFACE treats the lines as its beginning does: the rest of it leaves them alone. -/
theorem enableInterface_linesKept {mode : Handler} {offset : Int} {s t : State}
    (h : execEnableInterface mode offset s = .next t) : LinesKept (enableBegin s) t := by
  obtain ⟨-, h⟩ := execEnableInterface_eq_next.1 h
  obtain ⟨p, led, iv, i, e⟩ := waitAttempt_eq (enableBegin s)
  obtain ⟨q, u, hu, rfl⟩ | ⟨env, rfl⟩ := enableMode_cases h
  · obtain ⟨f, sh, sw, rm, k, j, e'⟩ := enableFinish_eq mode u
    rw [e] at hu
    have kept := armRefs_linesKept hu
    rw [e']
    exact kept
  · rw [e]
    exact ⟨rfl, rfl⟩

/-- An interface that is enabled while idle keeps the lines; one enabled while active releases them first. -/
theorem enableInterface_lines {mode : Handler} {offset : Int} {s t : State}
    (h : execEnableInterface mode offset s = .next t) :
    LinesKept s t ∨ s.ifState = .active ∧ LinesReleased t := by
  have kept := enableInterface_linesKept h
  cases hi : s.ifState with
  | idle =>
    rw [enableBegin_idle hi] at kept
    exact .inl kept
  | active =>
    rw [enableBegin_active hi] at kept
    obtain ⟨hb, hq⟩ := disableInterface_linesReleased s
    exact .inr ⟨rfl, kept.1.trans hb, kept.2.trans hq⟩

/-! ### Events and steps -/

/-- A conforming event keeps the lines, releases them by disabling, or is a host cycle that changes one. -/
theorem runEvent_lines {e : Event} {s t : State} (he : conforming e = true) (h : runEvent e s = .next t) :
    LinesKept s t ∨ Disabling e s ∧ LinesReleased t ∨ (∃ c, e = .cycle c) ∧ CycleChange s t := by
  cases e with
  | cycle c => exact (hostClock_lines h).imp_right fun change => .inr ⟨⟨c, rfl⟩, change⟩
  | op w =>
    change runWord w s = .next t at h
    obtain ⟨mode, offset, hw⟩ | hw := conforming_op he <;> rw [runWord_of_decode_ok hw] at h
    · obtain kept | ⟨active, released⟩ := enableInterface_lines h
      · exact .inl kept
      · exact .inr (.inl ⟨⟨w, rfl, .inr ⟨mode, offset, hw, active⟩⟩, released⟩)
    · obtain rfl := Host.Outcome.next.inj h
      exact .inr (.inl ⟨⟨w, rfl, .inl hw⟩, disableInterface_linesReleased s⟩)
  | extWrite x => exact .inl (extWrite_linesKept h)
  | mark r => exact .inl (extMark_linesKept h)

theorem step_lines {s t : State} (he : conforming (nextEvent s).1 = true) (h : step s = .next t) :
    LinesKept s t ∨ Disabling (nextEvent s).1 s ∧ LinesReleased t ∨
      (∃ c, (nextEvent s).1 = .cycle c) ∧ CycleChange s t := by
  obtain ⟨env, i, e⟩ := nextEvent_eq s
  obtain ⟨-, h⟩ := step_eq_next.1 h
  rw [e] at h
  have lines := runEvent_lines he h
  exact lines

/-- Settles O57: of the ways a conforming step can treat the lines, one raises each of them, and one besides disabling
lowers it. -/
theorem outputChangePoints : Obligations.OutputChangePoints := by
  unfold Obligations.OutputChangePoints
  rintro s t e rfl he h cycle disabling
  obtain ⟨hb, hq⟩ | ⟨hd, hb, hq⟩ | ⟨hc, installed | answered | restored⟩ := step_lines he h
  · rw [hb, hq]
    simp +contextual
  · rw [hb, hq]
    exact ⟨nofun, fun _ _ => .inr hd, nofun, fun _ _ => .inr hd⟩
  · obtain ⟨hb, hq, pair, dma, saved, data⟩ := installed
    rw [hb, hq]
    exact ⟨fun _ _ => ⟨hc, pair, dma, saved, data⟩, nofun, by simp +contextual, by simp +contextual⟩
  · obtain ⟨hb, pair, read, word⟩ := answered
    have cleared := read.flags_clear
    obtain ⟨-, driven, hq⟩ := read
    rw [hb, hq]
    exact ⟨by simp +contextual, by simp +contextual, nofun,
      fun _ _ => .inl ⟨hc, pair, by simp [driven], cleared, word⟩⟩
  · obtain ⟨hb, hq, dma, slot, addr⟩ := restored
    rw [hb]
    refine ⟨nofun, fun _ _ => .inl ⟨hc, dma, slot, addr⟩, fun h0 h1 => ?irqRises, fun h1 h0 => ?irqFalls⟩
    case irqRises =>
      obtain kept | ⟨-, ip⟩ := hq
      · simp [kept, h0] at h1
      · exact ⟨hc, dma, slot, ip⟩
    case irqFalls =>
      obtain kept | ⟨raised, -⟩ := hq
      · simp [kept, h1] at h0
      · simp [raised] at h0

end Sys2Proof.Machine
end
